-- ==== Sys2Proof/Word.lean ====
section
/-! DEFINITION. The word types of the spec's notation (00_scope.md R9): `u8`, `u16` and `i32`. -/

namespace Sys2Proof

/-- `u8` of R9: a byte of a payload, a panel command number, the MADCTL and COLMOD mirrors. -/
abbrev Byte := BitVec 8

/-- `u16` of R9: coordinates, lengths, gaps, colours (30_encoding.md R100). -/
abbrev Half := BitVec 16

/-- `i32` of R9, held as its 32 bits; its value is `BitVec.toInt` (30_encoding.md R100). -/
abbrev I32 := BitVec 32

end Sys2Proof
end

