-- ==== Sys2Proof/Config.lean ====
section
/-! DEFINITION. The parameters: the constants the source fixes (00_scope.md R7), the named arguments it leaves
open (R8) with the spec's default for each, and the free constants for those that have no default. -/

namespace Sys2Proof

/-- Four like things, indexed by a rotation: "exactly 4 slots" (R7 `N_ROT`, 10_state.md R31). -/
structure Four (α : Type) where
  e0 : α
  e1 : α
  e2 : α
  e3 : α
deriving DecidableEq, Repr

/-- One entry of the rotation table (10_state.md R31). -/
structure RotEntry where
  madctl : Byte
  width : Half
  height : Half
  colstart : Half
  rowstart : Half
deriving DecidableEq, Repr

/-- The rotation table `rt[0..3]` (10_state.md R31). -/
abbrev RotTable := Four RotEntry

/-- The BusHandle (10_state.md R22). Only `cmdBits` and `addrBits` are read; the other attributes are opaque
tokens (log entry 18). -/
structure BusHandle where
  clockRate : Nat
  cmdBits : Nat
  addrBits : Nat
  csPin : Nat
  dataPins : Four Nat
deriving DecidableEq, Repr

/-- What the bus answers to one `claim` or `submit` (00_scope.md R10). The status code is opaque: no rule inspects
it (60_exceptions.md R237, log entry 18). -/
inductive BusAnswer where
  | ok
  | fail (st : Nat)
deriving DecidableEq, Repr, Inhabited

/-- `P_STREAM_AFTER_DROP` (R8, 43_drawing_ops.md R190): does a drawing operation go on to stream its colours after
its window was dropped? -/
inductive StreamAfterDrop where
  | send
  | skip
deriving DecidableEq, Repr, Inhabited

/-- `COLOR_ORDER` (R8, 20_memory.md R66). -/
inductive ColorOrder where
  | hiFirst
  | loFirst
deriving DecidableEq, Repr

/-- `RESET_NO_PIN` (R8, 45_lifecycle_ops.md R223): what RESET does without a reset pin. -/
inductive ResetNoPin where
  | noop
  | swreset
deriving DecidableEq, Repr

/-- One step of `INIT_SEQ` or of the software reset, "each a command frame or a delay" (45_lifecycle_ops.md R224); the
two frames that carry the mirror are steps of their own (log entry 23). -/
inductive InitStep where
  | frame (cmd : Byte) (p : List Byte)
  | sendColmod
  | sendMadctl
  | delay (us : Nat)
deriving DecidableEq, Repr

/-- The open parameters of R8, with the two integers of log entry 10 and the rule that log entry 9 supplies for
`RESET_NO_PIN = swreset`. No step changes them. -/
structure Params where
  opcCmdWrite : Byte
  opcColorWrite : Byte
  opSlpin : Byte
  opSlpout : Byte
  opInvoff : Byte
  opInvon : Byte
  opDispoff : Byte
  opDispon : Byte
  opCaset : Byte
  opRaset : Byte
  opRamwr : Byte
  opVscrdef : Byte
  opMadctl : Byte
  opVscsad : Byte
  opColmod : Byte
  opWrdisbv : Byte
  addrBits : Nat
  coordBits : Nat
  nativeW : Half
  nativeH : Half
  vendorRotTable : RotTable
  genericRotMadctl : Four Byte
  madctlMy : Byte
  madctlMx : Byte
  madctlMv : Byte
  madctlBgr : Byte
  streamAfterDrop : StreamAfterDrop
  colorOrder : ColorOrder
  /-- `BRIGHT_MAP` at 1..99; its ends 0x00 and 0xFF are fixed (D41). -/
  brightMap : Vector Byte 99
  resetAssertUs : Nat
  resetReleaseUs : Nat
  resetNoPin : ResetNoPin
  /-- What RESET does under `swreset`: "a model that takes it must supply one" (45_lifecycle_ops.md R223, log entry 9).
  -/
  swResetSteps : List InitStep
  initSeq : List InitStep
  codeRgb : Int
  codeBgr : Int
deriving DecidableEq, Repr

namespace Config

/-- `BUS_MAX` (R7): the largest data phase of one transaction, in bytes. -/
def busMax : Nat := 0x8000

/-- `CMD_PHASE_BITS` (R7). -/
def cmdPhaseBits : Nat := 8

/-- `ADDR_SHIFT` (R7): the panel command is "shifted left 8 bits" into the address field. -/
def addrShift : Nat := 8

/-- `MADCTL_KEEP` (R7): the bits of MADCTL a rotation preserves. -/
def madctlKeep : Byte := 0x1F

/-- `MADCTL_ROT` (R7): the bits of MADCTL a rotation clears. -/
def madctlRot : Byte := 0xE0

/-- `COLMOD_16` (R7). -/
def colmod16 : Byte := 0x75

/-- `COLMOD_18` (R7). -/
def colmod18 : Byte := 0x76

/-- `COLMOD_24` (R7). -/
def colmod24 : Byte := 0x77

/-- `SPECIAL_W` (R7). -/
def specialW : Half := 240

/-- `SPECIAL_H` (R7). -/
def specialH : Half := 536

/-- `BRIGHT_LO` (R7). -/
def brightLo : Int := 0

/-- `BRIGHT_HI` (R7). -/
def brightHi : Int := 100

/-- `BRIGHT_BYTE_MAX` (R7). -/
def brightByteMax : Byte := 0xFF

/-- `BRIGHT_BYTE_MIN` (R7). -/
def brightByteMin : Byte := 0x00

/-- `CS_ASSERT` (R7): the level that asserts chip-select, low. -/
def csAssert : Bool := false

/-- `CS_DEASSERT` (R7): the level that deasserts chip-select, high. -/
def csDeassert : Bool := true

/-- `P_STREAM_AFTER_DROP` has no default: "a claim must hold for both" (R8, D18). Free (log entry 4). -/
opaque streamAfterDrop : StreamAfterDrop

/-- `T_RESET_ASSERT_US` has no default (R8, D47). Free (log entry 5). -/
opaque resetAssertUs : Nat

/-- `T_RESET_RELEASE_US` has no default (R8, D47). Free (log entry 5). -/
opaque resetReleaseUs : Nat

/-- `T_SLPOUT_US` has no default (R8, D48). Free (log entry 5). -/
opaque slpoutUs : Nat

/-- The software reset of `RESET_NO_PIN = swreset`: the source names no command for it (45_lifecycle_ops.md R223). Free
(log entry 9). -/
opaque swResetSteps : List InitStep

/-- What the bus answers to its `n`-th question where the state lists no answer: the oracle of 40_bus_transport.md
R124. Free (log entry 7). -/
opaque busAnswer : Nat → BusAnswer

end Config

/-- The default vendor rotation table (10_state.md R32; log entry 3, PRESUMED). -/
def Params.defaultVendorTable : RotTable :=
  { e0 := ⟨0x00, 240, 536, 0, 0⟩, e1 := ⟨0x60, 536, 240, 0, 0⟩,
    e2 := ⟨0xC0, 240, 536, 0, 0⟩, e3 := ⟨0xA0, 536, 240, 0, 0⟩ }

/-- The default `BRIGHT_MAP`, `floor(255*c/100)`, at `c` from 1 to 99 (R8, D41; log entry 8). -/
def Params.defaultBrightMap : Vector Byte 99 := Vector.ofFn fun k => BitVec.ofNat 8 (255 * (k.val + 1) / 100)

/-- The default column of R8 (log entries 2 and 3, PRESUMED; the spec marks the numbers as general knowledge). The
parameters without a default are the free constants of `Config`. -/
def Params.standard : Params :=
  { opcCmdWrite := 0x02, opcColorWrite := 0x32,
    opSlpin := 0x10, opSlpout := 0x11, opInvoff := 0x20, opInvon := 0x21,
    opDispoff := 0x28, opDispon := 0x29, opCaset := 0x2A, opRaset := 0x2B, opRamwr := 0x2C,
    opVscrdef := 0x33, opMadctl := 0x36, opVscsad := 0x37, opColmod := 0x3A, opWrdisbv := 0x51,
    addrBits := 24, coordBits := 10, nativeW := 240, nativeH := 536,
    vendorRotTable := Params.defaultVendorTable,
    genericRotMadctl := { e0 := 0x00, e1 := 0x60, e2 := 0xC0, e3 := 0xA0 },
    madctlMy := 0x80, madctlMx := 0x40, madctlMv := 0x20, madctlBgr := 0x08,
    streamAfterDrop := Config.streamAfterDrop, colorOrder := .hiFirst, brightMap := Params.defaultBrightMap,
    resetAssertUs := Config.resetAssertUs, resetReleaseUs := Config.resetReleaseUs, resetNoPin := .noop,
    swResetSteps := Config.swResetSteps,
    initSeq := [.frame 0x11 [], .delay Config.slpoutUs, .sendColmod, .sendMadctl, .frame 0x29 []],
    codeRgb := 0, codeBgr := 1 }

/-- The fourteen panel command numbers of R8, in 30_encoding.md R96's order. -/
def Params.opcodes (P : Params) : List Byte :=
  [P.opSlpin, P.opSlpout, P.opInvoff, P.opInvon, P.opDispoff, P.opDispon, P.opCaset, P.opRaset, P.opRamwr,
   P.opVscrdef, P.opMadctl, P.opVscsad, P.opColmod, P.opWrdisbv]

/-- May this step stand in an admissible `INIT_SEQ` or software reset? A raw frame of it fits one transaction and
carries neither MADCTL nor COLMOD, which travel as the steps that read the mirror (45_lifecycle_ops.md R224, log entry
23). -/
def Params.initStepOk (P : Params) : InitStep → Bool
  | .frame c p => decide (p.length ≤ Config.busMax) && c != P.opMadctl && c != P.opColmod
  | .sendColmod => true
  | .sendMadctl => true
  | .delay _ => true

/-- The admissible values of the parameters: the command numbers pairwise distinct (D6), `ADDR_BITS` at least 16
(D7), `COORD_BITS` in 10..16 (D8), MY, MX, MV within 0xE0 and BGR within 0x1F (D12), `INIT_SEQ` sends both mirrors
(D48), RGB and BGR told apart (log entry 10), a software reset that is taken sends no raw mirror byte (log entry 9). -/
abbrev Params.Ok (P : Params) : Prop :=
  P.opcodes.Nodup ∧ 16 ≤ P.addrBits ∧ 10 ≤ P.coordBits ∧ P.coordBits ≤ 16 ∧
  P.madctlMy &&& Config.madctlKeep = 0 ∧ P.madctlMx &&& Config.madctlKeep = 0 ∧
  P.madctlMv &&& Config.madctlKeep = 0 ∧ P.madctlBgr &&& Config.madctlRot = 0 ∧
  InitStep.sendColmod ∈ P.initSeq ∧ InitStep.sendMadctl ∈ P.initSeq ∧
  P.initSeq.all P.initStepOk = true ∧ P.codeRgb ≠ P.codeBgr ∧
  (P.resetNoPin = .swreset → P.swResetSteps.all P.initStepOk = true)

end Sys2Proof
end

