-- ==== Sys2Proof/Syntax.lean ====
section
/-! DEFINITION. The instructions: the 34 host operations (30_encoding.md R99), the 14 wire panel commands and the
data frame (R96). Also the records that carry them: the transaction (R90) and the request port's items. -/

namespace Sys2Proof

/-- An instruction: one constructor per row of the opcode table. Operand types are those of 30_encoding.md R100. -/
inductive Instr where
  /-- SUBMIT_COMMAND (R120). -/
  | submitCommand (cmd : Byte) (p : List Byte)
  /-- SUBMIT_COLOR (R121). -/
  | submitColor (p : List Byte)
  /-- SET_ROTATION (R160). -/
  | setRotation (i : BitVec 2)
  /-- SET_ROTATION_TABLE (R161). -/
  | setRotationTable (i : BitVec 2) (t : RotTable)
  /-- SET_WINDOW (R162); both ends inclusive. -/
  | setWindow (x0 y0 x1 y1 : Half)
  /-- SET_PIXEL_FORMAT (R163). -/
  | setPixelFormat (b : Int)
  /-- SET_COLOR_SPACE (R164). -/
  | setColorSpace (k : Int)
  /-- SEND_CMD (R165). -/
  | sendCmd (cmd c : Byte) (n : Nat)
  /-- MIRROR (R166). -/
  | mirror (mx my : Bool)
  /-- SWAP_XY (R167). -/
  | swapXy (sw : Bool)
  /-- SET_GAP (R168). -/
  | setGap (gx gy : Half)
  /-- INVERT_COLOR (R169). -/
  | invertColor (v : Bool)
  /-- DISP_ON (R170). -/
  | dispOn
  /-- DISP_OFF (R171). -/
  | dispOff
  /-- BACKLIGHT_ON (R172). -/
  | backlightOn
  /-- BACKLIGHT_OFF (R173). -/
  | backlightOff
  /-- BRIGHTNESS (R174). -/
  | brightness (b : I32)
  /-- WIDTH (R175). -/
  | width
  /-- HEIGHT (R176). -/
  | height
  /-- VSCROLL_AREA (R177). -/
  | vscrollArea (tfa vsa bfa : Half)
  /-- VSCROLL_START (R178); the flag may be absent. -/
  | vscrollStart (off : Half) (wrap : Option Bool)
  /-- PIXEL (R191). -/
  | pixel (x y c : Half)
  /-- FILL (R192). -/
  | fill (c : Half)
  /-- FILL_RECT (R193). -/
  | fillRect (x y w h c : Half)
  /-- HLINE (R194). -/
  | hline (x y w c : Half)
  /-- VLINE (R195). -/
  | vline (x y h c : Half)
  /-- BITMAP (R196); the far ends are exclusive. -/
  | bitmap (x0 y0 x1 y1 : Half) (buf : List Byte)
  /-- RECT (R210). -/
  | rect (x y w h c : Half)
  /-- CIRCLE (R211). -/
  | circle (xm ym r : I32) (c : Half)
  /-- FILL_CIRCLE (R212). -/
  | fillCircle (xm ym r : I32) (c : Half)
  /-- CONSTRUCT (R220): a bus handle, a reset pin or none, the level that asserts reset, colour space, bit depth. -/
  | construct (bus : BusHandle) (rst : Option Nat) (rl : Bool) (k b : Int)
  /-- DEINIT (R222). -/
  | deinit
  /-- RESET (R223). -/
  | reset
  /-- INIT (R224). -/
  | init
  /-- The MADCTL command frame (R141). -/
  | madctl (m : Byte)
  /-- The CASET command frame (R142). -/
  | caset (x0 x1 : Half)
  /-- The RASET command frame (R143). -/
  | raset (y0 y1 : Half)
  /-- The COLMOD command frame (R145). -/
  | colmod (code : Byte)
  /-- The SLPIN command frame (R146). -/
  | slpin
  /-- The SLPOUT command frame (R147). -/
  | slpout
  /-- The DISPON command frame (R148). -/
  | dispon
  /-- The DISPOFF command frame (R149). -/
  | dispoff
  /-- The INVON command frame (R150). -/
  | invon
  /-- The INVOFF command frame (R151). -/
  | invoff
  /-- The WRDISBV command frame (R152). -/
  | wrdisbv (v : Byte)
  /-- The VSCRDEF command frame (R153). -/
  | vscrdef (tfa vsa bfa : Half)
  /-- The VSCSAD command frame (R154). -/
  | vscsad (off : Half)
  /-- The RAMWR priming frame (R144), with the number of pixel bytes that "follow in data frames" (log entry 15). -/
  | ramwr (len : Nat)
  /-- The data frame (R155). -/
  | data (d : List Byte)
deriving DecidableEq, Repr

/-- The address phase: its width in bits and its value (30_encoding.md R90, 20_memory.md R64). -/
structure AddrPhase where
  bits : Nat
  value : Nat
deriving DecidableEq, Repr

/-- The transfer mode flags, a subset of six symbols (30_encoding.md R94): a member is `true`. -/
structure ModeFlags where
  mlCmd : Bool
  mlAddr : Bool
  quad : Bool
  varCmd : Bool
  varAddr : Bool
  varDummy : Bool
deriving DecidableEq, Repr

/-- The transaction record handed to `submit` (30_encoding.md R90). -/
structure Transaction where
  cmd : Option Byte
  addr : Option AddrPhase
  data : List Byte
  flags : ModeFlags
deriving DecidableEq, Repr

/-- A typed operand that travels beside the selector (30_encoding.md R99, D2). -/
inductive Operand where
  | int (v : Int)
  | buf (p : List Byte)
  | bus (h : BusHandle)
  | table (t : RotTable)
  | absent
deriving DecidableEq, Repr

/-- What the request port presents: a host request (30_encoding.md R99), or one wire frame with the number of pixel
bytes that follow it in its bracket (log entries 14 and 15). -/
inductive PortItem where
  | request (op : BitVec 6) (args : List Operand)
  | frame (t : Transaction) (follow : Nat)
deriving DecidableEq, Repr

end Sys2Proof
end

