-- ==== Sys2Proof/WellFormed.lean ====
section
/-! DEFINITION. Well-formed instructions: the bounds of the spec that the operand types alone do not hold. -/

namespace Sys2Proof

/-- A coordinate of a CASET or RASET row fits the controller's addressable width, so that `coord4` keeps it
(20_memory.md R65). A frame with other bytes is no such row: it is read as a raw command (log entry 16). -/
def coordFits (P : Params) (v : Half) : Bool := decide (v.toNat < 2 ^ P.coordBits)

/-- A bus handle carries the two widths the QPC reads: `cmd_bits = CMD_PHASE_BITS`, `addr_bits = ADDR_BITS`
(10_state.md R22). -/
def busFits (P : Params) (h : BusHandle) : Bool :=
  decide (h.cmdBits = Config.cmdPhaseBits) && decide (h.addrBits = P.addrBits)

/-- The checks, constructor by constructor. A data frame holds at most `BUS_MAX` bytes (30_encoding.md R93). -/
def Instr.wf (P : Params) : Instr → Bool
  | .submitCommand _ _ => true
  | .submitColor _ => true
  | .setRotation _ => true
  | .setRotationTable _ _ => true
  | .setWindow _ _ _ _ => true
  | .setPixelFormat _ => true
  | .setColorSpace _ => true
  | .sendCmd _ _ _ => true
  | .mirror _ _ => true
  | .swapXy _ => true
  | .setGap _ _ => true
  | .invertColor _ => true
  | .dispOn => true
  | .dispOff => true
  | .backlightOn => true
  | .backlightOff => true
  | .brightness _ => true
  | .width => true
  | .height => true
  | .vscrollArea _ _ _ => true
  | .vscrollStart _ _ => true
  | .pixel _ _ _ => true
  | .fill _ => true
  | .fillRect _ _ _ _ _ => true
  | .hline _ _ _ _ => true
  | .vline _ _ _ _ => true
  | .bitmap _ _ _ _ _ => true
  | .rect _ _ _ _ _ => true
  | .circle _ _ _ _ => true
  | .fillCircle _ _ _ _ => true
  | .construct h _ _ _ _ => busFits P h
  | .deinit => true
  | .reset => true
  | .init => true
  | .madctl _ => true
  | .caset x0 x1 => coordFits P x0 && coordFits P x1
  | .raset y0 y1 => coordFits P y0 && coordFits P y1
  | .colmod _ => true
  | .slpin => true
  | .slpout => true
  | .dispon => true
  | .dispoff => true
  | .invon => true
  | .invoff => true
  | .wrdisbv _ => true
  | .vscrdef _ _ _ => true
  | .vscsad _ => true
  | .ramwr _ => true
  | .data d => decide (d.length ≤ Config.busMax)

end Sys2Proof
end

