-- ==== Sys2Proof/Decode.lean ====
section
/-! DEFINITION. Bytes of a word, the three frame shapes (30_encoding.md R90 to R93), the decoder of port items, total
and rejecting by name, and after it the encoder. -/

namespace Sys2Proof

/-! ### Bytes and words -/

/-- `hi(v) = v[15:8]` (00_scope.md R9). -/
def hi (v : Half) : Byte := v.extractLsb' 8 8

/-- `lo(v) = v[7:0]` (00_scope.md R9). -/
def lo (v : Half) : Byte := v.extractLsb' 0 8

/-- `h ++ l`, the u16 whose high byte is `h` (00_scope.md R9). -/
def join (h l : Byte) : Half := h ++ l

/-- A u16 on the wire, high byte first (20_memory.md R65, R67). -/
def be16 (v : Half) : List Byte := [hi v, lo v]

/-- `COORD_HI_MASK` (20_memory.md R65). -/
def coordHiMask (P : Params) : Byte := BitVec.ofNat 8 (2 ^ (P.coordBits - 8) - 1)

/-- The coordinate block of CASET and RASET (30_encoding.md R95). -/
def coord4 (P : Params) (a b : Half) : List Byte :=
  [hi a &&& coordHiMask P, lo a, hi b &&& coordHiMask P, lo b]

/-! ### Frames -/

/-- `zext_ADDR_BITS(c) << 8`, on `bits` bits (20_memory.md R64). -/
def addrOf (bits : Nat) (c : Byte) : AddrPhase :=
  { bits := bits, value := c.toNat * 2 ^ Config.addrShift % 2 ^ bits }

/-- The panel command in an address phase, `addr[15:8]` (30_encoding.md R96). -/
def addrCommand (a : AddrPhase) : Byte := BitVec.ofNat 8 (a.value / 2 ^ Config.addrShift)

/-- The flags of a command frame, `{ML_CMD, ML_ADDR}` (30_encoding.md R91). -/
def commandFlags : ModeFlags :=
  { mlCmd := true, mlAddr := true, quad := false, varCmd := false, varAddr := false, varDummy := false }

/-- The flags of the priming frame, `{QUAD}` (30_encoding.md R92). -/
def primeFlags : ModeFlags :=
  { mlCmd := false, mlAddr := false, quad := true, varCmd := false, varAddr := false, varDummy := false }

/-- The flags of a data frame, `{QUAD, VAR_CMD, VAR_ADDR, VAR_DUMMY}` (30_encoding.md R93). -/
def dataFlags : ModeFlags :=
  { mlCmd := false, mlAddr := false, quad := true, varCmd := true, varAddr := true, varDummy := true }

/-- The command frame (30_encoding.md R91) on an address phase of `bits` bits. -/
def commandFrame (P : Params) (bits : Nat) (c : Byte) (p : List Byte) : Transaction :=
  { cmd := some P.opcCmdWrite, addr := some (addrOf bits c), data := p, flags := commandFlags }

/-- The priming frame (30_encoding.md R92). -/
def primingFrame (P : Params) (bits : Nat) : Transaction :=
  { cmd := some P.opcColorWrite, addr := some (addrOf bits P.opRamwr), data := [], flags := primeFlags }

/-- The data frame (30_encoding.md R93). -/
def dataFrame (d : List Byte) : Transaction :=
  { cmd := none, addr := none, data := d, flags := dataFlags }

/-! ### Reading typed operands (30_encoding.md R100) -/

/-- A `u8` operand. -/
def Operand.byte? : Operand → Option Byte
  | .int v => if 0 ≤ v ∧ v < 2 ^ 8 then some (BitVec.ofInt 8 v) else none
  | _ => none

/-- A `u16` operand. -/
def Operand.half? : Operand → Option Half
  | .int v => if 0 ≤ v ∧ v < 2 ^ 16 then some (BitVec.ofInt 16 v) else none
  | _ => none

/-- An `i32` operand. -/
def Operand.i32? : Operand → Option I32
  | .int v => if -2 ^ 31 ≤ v ∧ v < 2 ^ 31 then some (BitVec.ofInt 32 v) else none
  | _ => none

/-- A rotation index, 2 bits. -/
def Operand.index? : Operand → Option (BitVec 2)
  | .int v => if 0 ≤ v ∧ v < 2 ^ 2 then some (BitVec.ofInt 2 v) else none
  | _ => none

/-- A boolean, 1 bit. -/
def Operand.bit? : Operand → Option Bool
  | .int v => if v = 0 then some false else if v = 1 then some true else none
  | _ => none

/-- A natural number (SEND_CMD's `n`, a pin). -/
def Operand.nat? : Operand → Option Nat
  | .int v => if 0 ≤ v then some v.toNat else none
  | _ => none

/-- An unbounded integer. -/
def Operand.int? : Operand → Option Int
  | .int v => some v
  | _ => none

/-- An operand that may be absent. -/
def Operand.orAbsent {α : Type} (read : Operand → Option α) : Operand → Option (Option α)
  | .absent => some none
  | o => (read o).map some

/-! ### The decoder -/

/-- Why the decoder rejects a port item. -/
inductive DecodeError where
  /-- The selector is not in 30_encoding.md R99's table (R101). -/
  | unknownOperation
  /-- The operands are not those the operation has (R100: they cannot be presented at the port). -/
  | badOperands
  /-- The frame has none of the three shapes of R91 to R93 (R101). -/
  | notAFrame
  /-- The instruction breaks a bound of `Instr.wf`. -/
  | illFormed
deriving DecidableEq, Repr

/-- An operand list that could not be read is rejected by name. -/
def needOperands : Option Instr → Except DecodeError Instr
  | some i => .ok i
  | none => .error .badOperands

/-- The operations without operands. -/
def nullary (i : Instr) : List Operand → Option Instr
  | [] => some i
  | _ => none

/-- The operations on one u16. -/
def halves1 (f : Half → Instr) : List Operand → Option Instr
  | [a] => do return f (← a.half?)
  | _ => none

/-- The operations on two u16. -/
def halves2 (f : Half → Half → Instr) : List Operand → Option Instr
  | [a, b] => do return f (← a.half?) (← b.half?)
  | _ => none

/-- The operations on three u16. -/
def halves3 (f : Half → Half → Half → Instr) : List Operand → Option Instr
  | [a, b, c] => do return f (← a.half?) (← b.half?) (← c.half?)
  | _ => none

/-- The operations on four u16. -/
def halves4 (f : Half → Half → Half → Half → Instr) : List Operand → Option Instr
  | [a, b, c, d] => do return f (← a.half?) (← b.half?) (← c.half?) (← d.half?)
  | _ => none

/-- The operations on five u16. -/
def halves5 (f : Half → Half → Half → Half → Half → Instr) : List Operand → Option Instr
  | [a, b, c, d, e] => do return f (← a.half?) (← b.half?) (← c.half?) (← d.half?) (← e.half?)
  | _ => none

/-- The operations on one bit. -/
def bits1 (f : Bool → Instr) : List Operand → Option Instr
  | [a] => do return f (← a.bit?)
  | _ => none

/-- SUBMIT_COMMAND's operands. -/
def submitCommandOperands : List Operand → Option Instr
  | [c, .buf p] => do return .submitCommand (← c.byte?) p
  | _ => none

/-- SUBMIT_COLOR's operand. -/
def submitColorOperands : List Operand → Option Instr
  | [.buf p] => some (.submitColor p)
  | _ => none

/-- SET_ROTATION's operand. -/
def setRotationOperands : List Operand → Option Instr
  | [i] => do return .setRotation (← i.index?)
  | _ => none

/-- SET_ROTATION_TABLE's operands. -/
def setRotationTableOperands : List Operand → Option Instr
  | [i, .table t] => do return .setRotationTable (← i.index?) t
  | _ => none

/-- SET_PIXEL_FORMAT's and SET_COLOR_SPACE's operand. -/
def integer1 (f : Int → Instr) : List Operand → Option Instr
  | [k] => do return f (← k.int?)
  | _ => none

/-- SEND_CMD's operands. -/
def sendCmdOperands : List Operand → Option Instr
  | [cmd, c, n] => do return .sendCmd (← cmd.byte?) (← c.byte?) (← n.nat?)
  | _ => none

/-- MIRROR's operands. -/
def mirrorOperands : List Operand → Option Instr
  | [mx, my] => do return .mirror (← mx.bit?) (← my.bit?)
  | _ => none

/-- BRIGHTNESS's operand. -/
def brightnessOperands : List Operand → Option Instr
  | [b] => do return .brightness (← b.i32?)
  | _ => none

/-- VSCROLL_START's operands. -/
def vscrollStartOperands : List Operand → Option Instr
  | [off, wrap] => do return .vscrollStart (← off.half?) (← wrap.orAbsent Operand.bit?)
  | _ => none

/-- BITMAP's operands. -/
def bitmapOperands : List Operand → Option Instr
  | [x0, y0, x1, y1, .buf p] => do return .bitmap (← x0.half?) (← y0.half?) (← x1.half?) (← y1.half?) p
  | _ => none

/-- CIRCLE's and FILL_CIRCLE's operands. -/
def circleOperands (f : I32 → I32 → I32 → Half → Instr) : List Operand → Option Instr
  | [xm, ym, r, c] => do return f (← xm.i32?) (← ym.i32?) (← r.i32?) (← c.half?)
  | _ => none

/-- CONSTRUCT's operands. -/
def constructOperands : List Operand → Option Instr
  | [.bus h, rst, rl, k, b] => do
    return .construct h (← rst.orAbsent Operand.nat?) (← rl.bit?) (← k.int?) (← b.int?)
  | _ => none

/-- A host request by its selector (30_encoding.md R99). -/
def parseRequest (op : BitVec 6) (args : List Operand) : Except DecodeError Instr :=
  match op.toNat with
  | 0x00 => needOperands (submitCommandOperands args)
  | 0x01 => needOperands (submitColorOperands args)
  | 0x08 => needOperands (setRotationOperands args)
  | 0x09 => needOperands (setRotationTableOperands args)
  | 0x0A => needOperands (halves4 .setWindow args)
  | 0x0B => needOperands (integer1 .setPixelFormat args)
  | 0x0C => needOperands (integer1 .setColorSpace args)
  | 0x0D => needOperands (sendCmdOperands args)
  | 0x0E => needOperands (mirrorOperands args)
  | 0x0F => needOperands (bits1 .swapXy args)
  | 0x10 => needOperands (halves2 .setGap args)
  | 0x11 => needOperands (bits1 .invertColor args)
  | 0x12 => needOperands (nullary .dispOn args)
  | 0x13 => needOperands (nullary .dispOff args)
  | 0x14 => needOperands (nullary .backlightOn args)
  | 0x15 => needOperands (nullary .backlightOff args)
  | 0x16 => needOperands (brightnessOperands args)
  | 0x17 => needOperands (nullary .width args)
  | 0x18 => needOperands (nullary .height args)
  | 0x19 => needOperands (halves3 .vscrollArea args)
  | 0x1A => needOperands (vscrollStartOperands args)
  | 0x20 => needOperands (halves3 .pixel args)
  | 0x21 => needOperands (halves1 .fill args)
  | 0x22 => needOperands (halves5 .fillRect args)
  | 0x23 => needOperands (halves4 .hline args)
  | 0x24 => needOperands (halves4 .vline args)
  | 0x25 => needOperands (bitmapOperands args)
  | 0x28 => needOperands (halves5 .rect args)
  | 0x29 => needOperands (circleOperands .circle args)
  | 0x2A => needOperands (circleOperands .fillCircle args)
  | 0x30 => needOperands (constructOperands args)
  | 0x31 => needOperands (nullary .deinit args)
  | 0x32 => needOperands (nullary .reset args)
  | 0x33 => needOperands (nullary .init args)
  | _ => .error .unknownOperation

/-- The wire command with this number and these parameter bytes (30_encoding.md R96); a frame that is in none of the
rows is a raw command sent by SUBMIT_COMMAND. So is a CASET or RASET frame whose bytes are no `coord4`, a high byte
having bits beyond `COORD_HI_MASK`: only a raw command can carry it (log entry 16). -/
def parseCommand (P : Params) (c : Byte) (p : List Byte) : Instr :=
  match p with
  | [] =>
    if c = P.opSlpin then .slpin else if c = P.opSlpout then .slpout
    else if c = P.opDispon then .dispon else if c = P.opDispoff then .dispoff
    else if c = P.opInvon then .invon else if c = P.opInvoff then .invoff
    else .submitCommand c p
  | [m] =>
    if c = P.opMadctl then .madctl m else if c = P.opColmod then .colmod m
    else if c = P.opWrdisbv then .wrdisbv m else .submitCommand c p
  | [a, b] => if c = P.opVscsad then .vscsad (join a b) else .submitCommand c p
  | [a, b, d, e] =>
    if coordFits P (join a b) && coordFits P (join d e) then
      if c = P.opCaset then .caset (join a b) (join d e)
      else if c = P.opRaset then .raset (join a b) (join d e) else .submitCommand c p
    else .submitCommand c p
  | [a, b, d, e, f, g] =>
    if c = P.opVscrdef then .vscrdef (join a b) (join d e) (join f g) else .submitCommand c p
  | _ => .submitCommand c p

/-- A wire frame, told apart by its command phase (30_encoding.md R96) and its flags. -/
def parseFrame (P : Params) (t : Transaction) (follow : Nat) : Except DecodeError Instr :=
  match t.addr with
  | none => if t = dataFrame t.data ∧ follow = 0 then .ok (.data t.data) else .error .notAFrame
  | some a =>
    if t = commandFrame P P.addrBits (addrCommand a) t.data ∧ follow = 0 then
      .ok (parseCommand P (addrCommand a) t.data)
    else if t = primingFrame P P.addrBits then .ok (.ramwr follow)
    else .error .notAFrame

/-- A port item, before the bounds are checked. -/
def parse (P : Params) : PortItem → Except DecodeError Instr
  | .request op args => parseRequest op args
  | .frame t follow => parseFrame P t follow

/-- The decoder: every port item is a well-formed instruction or is rejected by name. -/
def decode (P : Params) (item : PortItem) : Except DecodeError Instr :=
  match parse P item with
  | .ok i => if i.wf P then .ok i else .error .illFormed
  | .error e => .error e

/-! ### The encoder -/

/-- A u16 operand at the port. -/
def halfArg (v : Half) : Operand := .int v.toNat

/-- A bit at the port. -/
def bitArg (b : Bool) : Operand := .int (if b then 1 else 0)

/-- An operand that may be absent, at the port. -/
def optArg {α : Type} (f : α → Operand) : Option α → Operand
  | none => .absent
  | some a => f a

/-- A command frame as a port item. -/
def commandItem (P : Params) (c : Byte) (p : List Byte) : PortItem := .frame (commandFrame P P.addrBits c p) 0

/-- The encoder: the port item of an instruction, from the tables of 30_encoding.md R96 and R99. -/
def encode (P : Params) : Instr → PortItem
  | .submitCommand cmd p => .request 0x00 [.int cmd.toNat, .buf p]
  | .submitColor p => .request 0x01 [.buf p]
  | .setRotation i => .request 0x08 [.int i.toNat]
  | .setRotationTable i t => .request 0x09 [.int i.toNat, .table t]
  | .setWindow x0 y0 x1 y1 => .request 0x0A [halfArg x0, halfArg y0, halfArg x1, halfArg y1]
  | .setPixelFormat b => .request 0x0B [.int b]
  | .setColorSpace k => .request 0x0C [.int k]
  | .sendCmd cmd c n => .request 0x0D [.int cmd.toNat, .int c.toNat, .int n]
  | .mirror mx my => .request 0x0E [bitArg mx, bitArg my]
  | .swapXy sw => .request 0x0F [bitArg sw]
  | .setGap gx gy => .request 0x10 [halfArg gx, halfArg gy]
  | .invertColor v => .request 0x11 [bitArg v]
  | .dispOn => .request 0x12 []
  | .dispOff => .request 0x13 []
  | .backlightOn => .request 0x14 []
  | .backlightOff => .request 0x15 []
  | .brightness b => .request 0x16 [.int b.toInt]
  | .width => .request 0x17 []
  | .height => .request 0x18 []
  | .vscrollArea tfa vsa bfa => .request 0x19 [halfArg tfa, halfArg vsa, halfArg bfa]
  | .vscrollStart off wrap => .request 0x1A [halfArg off, optArg bitArg wrap]
  | .pixel x y c => .request 0x20 [halfArg x, halfArg y, halfArg c]
  | .fill c => .request 0x21 [halfArg c]
  | .fillRect x y w h c => .request 0x22 [halfArg x, halfArg y, halfArg w, halfArg h, halfArg c]
  | .hline x y w c => .request 0x23 [halfArg x, halfArg y, halfArg w, halfArg c]
  | .vline x y h c => .request 0x24 [halfArg x, halfArg y, halfArg h, halfArg c]
  | .bitmap x0 y0 x1 y1 buf => .request 0x25 [halfArg x0, halfArg y0, halfArg x1, halfArg y1, .buf buf]
  | .rect x y w h c => .request 0x28 [halfArg x, halfArg y, halfArg w, halfArg h, halfArg c]
  | .circle xm ym r c => .request 0x29 [.int xm.toInt, .int ym.toInt, .int r.toInt, halfArg c]
  | .fillCircle xm ym r c => .request 0x2A [.int xm.toInt, .int ym.toInt, .int r.toInt, halfArg c]
  | .construct h rst rl k b =>
    .request 0x30 [.bus h, optArg (fun n : Nat => .int n) rst, bitArg rl, .int k, .int b]
  | .deinit => .request 0x31 []
  | .reset => .request 0x32 []
  | .init => .request 0x33 []
  | .madctl m => commandItem P P.opMadctl [m]
  | .caset x0 x1 => commandItem P P.opCaset (coord4 P x0 x1)
  | .raset y0 y1 => commandItem P P.opRaset (coord4 P y0 y1)
  | .colmod code => commandItem P P.opColmod [code]
  | .slpin => commandItem P P.opSlpin []
  | .slpout => commandItem P P.opSlpout []
  | .dispon => commandItem P P.opDispon []
  | .dispoff => commandItem P P.opDispoff []
  | .invon => commandItem P P.opInvon []
  | .invoff => commandItem P P.opInvoff []
  | .wrdisbv v => commandItem P P.opWrdisbv [v]
  | .vscrdef tfa vsa bfa => commandItem P P.opVscrdef (be16 tfa ++ be16 vsa ++ be16 bfa)
  | .vscsad off => commandItem P P.opVscsad (be16 off)
  | .ramwr len => .frame (primingFrame P P.addrBits) len
  | .data d => .frame (dataFrame d) 0

/-! ### The opcode table's words -/

/-- A bus handle whose opaque attributes are 0 and whose two widths are those the QPC needs (log entry 17). -/
def plainBus (P : Params) : BusHandle :=
  { clockRate := 0, cmdBits := Config.cmdPhaseBits, addrBits := P.addrBits, csPin := 0,
    dataPins := { e0 := 0, e1 := 0, e2 := 0, e3 := 0 } }

/-- A rotation table of zeros. -/
def zeroTable : RotTable :=
  { e0 := ⟨0, 0, 0, 0, 0⟩, e1 := ⟨0, 0, 0, 0, 0⟩, e2 := ⟨0, 0, 0, 0, 0⟩, e3 := ⟨0, 0, 0, 0, 0⟩ }

/-- `n` zero operands. -/
def zeros (n : Nat) : List Operand := List.replicate n (.int 0)

/-- The zero operands of the operation a selector names (log entry 17): the opcode table gives operands no bits. -/
def zeroOperands (P : Params) (op : BitVec 6) : List Operand :=
  match op.toNat with
  | 0x00 => [.int 0, .buf []]
  | 0x01 => [.buf []]
  | 0x08 => zeros 1
  | 0x09 => [.int 0, .table zeroTable]
  | 0x0A => zeros 4
  | 0x0B => zeros 1
  | 0x0C => zeros 1
  | 0x0D => zeros 3
  | 0x0E => zeros 2
  | 0x0F => zeros 1
  | 0x10 => zeros 2
  | 0x11 => zeros 1
  | 0x16 => zeros 1
  | 0x19 => zeros 3
  | 0x1A => zeros 2
  | 0x20 => zeros 3
  | 0x21 => zeros 1
  | 0x22 => zeros 5
  | 0x23 => zeros 4
  | 0x24 => zeros 4
  | 0x25 => zeros 4 ++ [.buf []]
  | 0x28 => zeros 5
  | 0x29 => zeros 4
  | 0x2A => zeros 4
  | 0x30 => .bus (plainBus P) :: zeros 4
  | _ => []

/-- How many parameter bytes the command frame with this number has (30_encoding.md R96). -/
def parameterCount (P : Params) (c : Byte) : Nat :=
  if c = P.opCaset ∨ c = P.opRaset then 4
  else if c = P.opVscrdef then 6
  else if c = P.opVscsad then 2
  else if c = P.opMadctl ∨ c = P.opColmod ∨ c = P.opWrdisbv then 1
  else 0

/-- The frame whose header word is `t.cmd ++ t.addr` (30_encoding.md R91), with zero parameter bytes. -/
def headerFrame (P : Params) (w : Nat) : Transaction :=
  let cmd : Byte := BitVec.ofNat 8 (w / 2 ^ P.addrBits)
  let addr : AddrPhase := { bits := P.addrBits, value := w % 2 ^ P.addrBits }
  if cmd = P.opcCmdWrite then
    { cmd := some cmd, addr := some addr, flags := commandFlags
      data := List.replicate (parameterCount P (addrCommand addr)) 0 }
  else { cmd := some cmd, addr := some addr, data := [], flags := primeFlags }

/-- The port item of an opcode-table word: up to 8 bits a host request's selector, 0 bits a data frame (which has no
header), else a frame's header word. The selector is the word's bits 5..0; that the bits above them are not looked at is
the model's choice (log entry 17). -/
def tableItem (P : Params) (nbits w : Nat) : PortItem :=
  if nbits = 0 then .frame (dataFrame []) 0
  else if nbits ≤ 8 then .request (BitVec.ofNat 6 w) (zeroOperands P (BitVec.ofNat 6 w))
  else .frame (headerFrame P w) 0

/-- The instruction the decoder reads from an opcode-table word, under the default parameters. -/
def decodeTableWord (nbits w : Nat) : Option Instr := (decode Params.standard (tableItem Params.standard nbits w)).toOption

end Sys2Proof
end

