-- ==== Sys2Proof/Machine/State.lean ====
section
/-! DEFINITION. The machine's state (10_state.md), the events and results it produces (00_scope.md R11, R12), the
stops of the model, and the state after power-on. -/

namespace Sys2Proof.Machine

/-- The lifecycle state (10_state.md R21). -/
inductive Life where
  | unbound
  | active
  | released
deriving DecidableEq, Repr

/-- `color_space` (10_state.md R29). -/
inductive ColorSpace where
  | rgb
  | bgr
deriving DecidableEq, Repr

/-- `bpp`, bits per pixel: 16, 18 or 24 (10_state.md R30). -/
inductive Depth where
  | bpp16
  | bpp18
  | bpp24
deriving DecidableEq, Repr

/-- An addressing window, ends inclusive (10_state.md R25). -/
structure Window where
  x0 : Half
  y0 : Half
  x1 : Half
  y1 : Half
deriving DecidableEq, Repr

/-- `seq.phase` (10_state.md R33). -/
inductive Phase where
  | idle
  | cmd
  | prime
  | chunk
deriving DecidableEq, Repr

/-- The sequencer (10_state.md R33). `off` and `rem` have a meaning while `phase = chunk`. -/
structure Sequencer where
  phase : Phase
  off : Nat
  rem : Nat
deriving DecidableEq, Repr

/-- The one warning (60_exceptions.md R238). -/
inductive Warning where
  | unknownGeometry
deriving DecidableEq, Repr

/-- The events of the trace (00_scope.md R11). A level is `true` for 1. -/
inductive Event where
  | cs (level : Bool)
  | tx (t : Transaction)
  | rst (level : Bool)
  | delay (us : Nat)
  | warn (w : Warning)
  | claim
  | release
deriving DecidableEq, Repr

/-- The causes of a value error (60_exceptions.md R236). -/
inductive ValueFault where
  | unsupportedColorSpace
  | unsupportedBitDepth
deriving DecidableEq, Repr

/-- The causes of the spec's own outcome `Refused` (60_exceptions.md R240). -/
inductive RefusedWhy where
  | notActive
  | alreadyConstructed
  | payloadTooLong
  | badLength
  | shortBuffer
  | unknownOperation
  /-- The model's own cause, beside the six of R240: what stands at the port is no request that 30_encoding.md R100 lets
  be presented and no frame of R90's three shapes (log entry 14). -/
  | malformed (why : DecodeError)
deriving DecidableEq, Repr

/-- The result of a host operation (00_scope.md R12). `refused` is a result with no event and no state change
(60_exceptions.md R240, log entry 11). -/
inductive Result where
  | done
  | value (v : Half)
  | dropped
  | valueError (why : ValueFault)
  | ioError (st : Nat)
  | refused (why : RefusedWhy)
deriving DecidableEq, Repr

/-- The spec's state record `S` (10_state.md): every field with the rule that names it. -/
structure Qpc where
  /-- R21 -/
  life : Life
  /-- R22 -/
  bus : BusHandle
  /-- R22, `bus.claimed` -/
  busClaimed : Bool
  /-- R23 -/
  madctl : Byte
  /-- R24 -/
  colmod : Byte
  /-- R25 -/
  win : Option Window
  /-- R26 -/
  rotation : BitVec 2
  /-- R27 -/
  xGap : Half
  /-- R27 -/
  yGap : Half
  /-- R28 -/
  width : Half
  /-- R28 -/
  height : Half
  /-- R29 -/
  colorSpace : ColorSpace
  /-- R30 -/
  bpp : Depth
  /-- R31 -/
  rt : RotTable
  /-- R33 -/
  seq : Sequencer
  /-- R34, ghost -/
  txMadctl : Option Byte
  /-- R34, ghost -/
  txColmod : Option Byte
  /-- R36 -/
  csLevel : Bool
  /-- R36 -/
  rstPresent : Bool
  /-- R36 -/
  rstActive : Bool
  /-- R36 -/
  rstLevel : Bool
deriving DecidableEq, Repr

/-- The machine: the spec's record, and the model's own fields (INVENTORY.md, '## State'). -/
structure State extends Qpc where
  /-- The parameters of 00_scope.md R8, the same in every state of a run (log entry 1). -/
  cfg : Params
  /-- The requests the host has still to issue, oldest first (log entry 14). -/
  port : List PortItem
  /-- The bus's coming answers, as far as they are listed (log entry 7). -/
  answers : List BusAnswer
  /-- How many answers the bus has been asked for (log entry 7). -/
  asked : Nat
  /-- The event trace since power-on, oldest first (00_scope.md R11). -/
  trace : List Event
  /-- The result of the last operation (00_scope.md R12). -/
  result : Option Result
deriving DecidableEq, Repr

/-- The faults: a data frame presented where no rule of the spec gives it an effect. Both are safe: the machine
stops. -/
inductive Fault where
  /-- Raised by DATA where no colour transfer is open: a data frame "never appears outside a bracket that began with
  a priming frame" (41_panel_wire_commands.md R155). Safe. -/
  | dataOutsideBracket
  /-- Raised by DATA whose length is not that of the next chunk (40_bus_transport.md R121, R122). Safe. -/
  | notTheNextChunk
deriving DecidableEq, Repr

/-- The refusals: the machine stops. Both are safe. -/
inductive Refusal where
  /-- Raised by an arm of `exec` that has no meaning yet; there is none. Safe. -/
  | notModelled (mnemonic : String)
  /-- Raised by every operation presented while a colour transfer is open: two operations in flight "have no
  meaning" (20_memory.md R76, 70_reset_and_hazards.md R270; log entry 15). Safe. -/
  | overlappingOperation
deriving DecidableEq, Repr

/-- The state after power-on (10_state.md R41, 70_reset_and_hazards.md R260): `life`, `bus.claimed`, the ghosts and the
sequencer's phase are the spec's; every other register is unspecified there and holds the value of log entry 12. -/
def State.reset : State :=
  { life := .unbound, bus := plainBus Params.standard, busClaimed := false,
    madctl := 0, colmod := Config.colmod16, win := none, rotation := 0, xGap := 0, yGap := 0, width := 0, height := 0,
    colorSpace := .rgb, bpp := .bpp16, rt := zeroTable,
    seq := { phase := .idle, off := 0, rem := 0 }, txMadctl := none, txColmod := none,
    csLevel := true, rstPresent := false, rstActive := false, rstLevel := true,
    cfg := Params.standard, port := [], answers := [], asked := 0, trace := [], result := none }

end Sys2Proof.Machine

/-- `VSCROLL_WRAP_FN` (00_scope.md R8, 42_panel_protocol_ops.md R178): a model "may assume nothing of it except that it
is a function". It is applied to the part of the state that operations may read. Free (log entry 6). -/
opaque Sys2Proof.Config.vscrollWrap : Sys2Proof.Half → Sys2Proof.Machine.Qpc → Sys2Proof.Half
end

