-- ==== Sys2Proof/Machine/Operands.lean ====
section
/-! DEFINITION. Every operand form and every value the operations compute: register-file reads, the MADCTL byte,
format codes, colours, brightness, clipping, payload slices, the chunker, the circle recurrence. -/

namespace Sys2Proof.Machine

/-! ### Registers -/

/-- `rt[i]` (10_state.md R31). -/
def rtRead (t : RotTable) (i : BitVec 2) : RotEntry :=
  if i = 0 then t.e0 else if i = 1 then t.e1 else if i = 2 then t.e2 else t.e3

/-- The MADCTL byte of a rotation: the low five bits kept, the entry's whole byte ORed in
(42_panel_protocol_ops.md R160). -/
def rotationMadctl (m : Byte) (e : RotEntry) : Byte := (m &&& Config.madctlKeep) ||| e.madctl

/-- Write the bits of `mask`: set for `true`, cleared for `false` (R164, R166, R167). -/
def writeMask (m mask : Byte) (b : Bool) : Byte := (m &&& ~~~mask) ||| (if b then mask else 0)

/-- The MADCTL byte of MIRROR (42_panel_protocol_ops.md R166). -/
def mirrorMadctl (P : Params) (m : Byte) (mx my : Bool) : Byte :=
  (m &&& ~~~(P.madctlMx ||| P.madctlMy)) ||| (if mx then P.madctlMx else 0) ||| (if my then P.madctlMy else 0)

/-- The supported colour spaces, by their integers (42_panel_protocol_ops.md R164, log entry 10). -/
def colorSpaceOf (P : Params) (k : Int) : Option ColorSpace :=
  if k = P.codeRgb then some .rgb else if k = P.codeBgr then some .bgr else none

/-- The supported bit depths (60_exceptions.md R236). -/
def depthOf (b : Int) : Option Depth :=
  if b = 16 then some .bpp16 else if b = 18 then some .bpp18 else if b = 24 then some .bpp24 else none

/-- `colmod_code` (30_encoding.md R97). -/
def colmodCode : Depth → Byte
  | .bpp16 => Config.colmod16
  | .bpp18 => Config.colmod18
  | .bpp24 => Config.colmod24

/-- `Bpp`, bytes per pixel (10_state.md R30). -/
def bytesPerPixel : Depth → Nat
  | .bpp16 => 2
  | .bpp18 => 3
  | .bpp24 => 3

/-- The BGR mask of a colour space: `k = BGR ? MADCTL_BGR : 0` (R164, R220). -/
def colorSpaceBits (P : Params) : ColorSpace → Byte
  | .rgb => 0
  | .bgr => P.madctlBgr

/-- The part of the state that an open function of it may read: not the window, which "no rule reads" (10_state.md R25,
D17), nor the ghosts, on which "no operation's trace or result depends" (R34), nor the opaque bus attributes (R22), nor
the sequencer's counters outside a transfer (R33), nor the reset pin's level without a pin (R36). -/
def visible (q : Qpc) : Qpc :=
  { q with
    win := none, txMadctl := none, txColmod := none, seq := { q.seq with off := 0, rem := 0 }
    bus := { q.bus with clockRate := 0, csPin := 0, dataPins := { e0 := 0, e1 := 0, e2 := 0, e3 := 0 } }
    rstLevel := q.rstPresent && q.rstLevel }

/-! ### Coordinates, lengths, colours -/

/-- A u16 as an `Int` of a rule (00_scope.md R9). -/
def int (v : Half) : Int := (v.toNat : Int)

/-- A coordinate that passed the window check, as the u16 the wire carries (30_encoding.md R105). -/
def coord (v : Int) : Half := BitVec.ofInt 16 v

/-- The window check (42_panel_protocol_ops.md R162), on `Int`. -/
def windowOk (width height : Half) (x0 y0 x1 y1 : Int) : Bool :=
  decide (0 ≤ x0 ∧ x0 ≤ x1 ∧ x1 < int width ∧ 0 ≤ y0 ∧ y0 ≤ y1 ∧ y1 < int height)

/-- `clip(a, n, B)` (43_drawing_ops.md R197). -/
def clip (a n B : Int) : Int := if B ≤ a then 0 else min n (B - a)

/-- `col2(c)`, the two colour bytes (43_drawing_ops.md R190, 20_memory.md R66). -/
def col2 (P : Params) (c : Half) : List Byte :=
  match P.colorOrder with
  | .hiFirst => [hi c, lo c]
  | .loFirst => [lo c, hi c]

/-- `rep(p, n)` (00_scope.md R9). -/
def rep (p : List Byte) (n : Nat) : List Byte := (List.replicate n p).flatten

/-- The brightness percentage after clamping (30_encoding.md R97). -/
def clampPercent (b : Int) : Int := min (max b Config.brightLo) Config.brightHi

/-- `BRIGHT_MAP` on a clamped percentage: 0x00 at 0, the parameter's 99 entries from 1 to 99, and past them, at 100,
0xFF (00_scope.md R8, D41; log entry 8). -/
def brightMap (P : Params) (c : Int) : Byte :=
  if c ≤ Config.brightLo then Config.brightByteMin else (P.brightMap[(c - 1).toNat]?).getD Config.brightByteMax

/-! ### Payloads and the chunker -/

/-- The slice of `n` bytes from offset `off` (00_scope.md R9). -/
def slice (p : List Byte) (off n : Nat) : List Byte := (p.drop off).take n

/-- `MemRead(buf, off, n)`, which has no defined result beyond the buffer (20_memory.md R63). -/
def memRead (buf : List Byte) (off n : Nat) : Option (List Byte) :=
  if off + n ≤ buf.length then some (slice buf off n) else none

/-- The number of chunks of a payload, `max(1, ceil(L / BUS_MAX))` (40_bus_transport.md R122). -/
def chunkCount (L : Nat) : Nat := max 1 ((L + (Config.busMax - 1)) / Config.busMax)

/-- The size of chunk `k` (40_bus_transport.md R122). -/
def chunkSize (L k : Nat) : Nat := min Config.busMax (L - k * Config.busMax)

/-- Chunk `k` of a payload (40_bus_transport.md R122). -/
def chunk (p : List Byte) (k : Nat) : List Byte := slice p (k * Config.busMax) (chunkSize p.length k)

/-- All chunks of a payload in order (40_bus_transport.md R122). -/
def chunks (p : List Byte) : List (List Byte) := (List.range (chunkCount p.length)).map (chunk p)

/-! ### The circle recurrence (44_raster_ops.md R213) -/

/-- The loop of `steps`, at most `fuel` trips. -/
def circleLoop : Nat → Int → Int → Int → List (Int × Int)
  | 0, _, _, _ => []
  | fuel + 1, x, y, p =>
    if x ≤ y then
      (x, y) :: (if p < 0 then circleLoop fuel (x + 1) y (p + 2 * x + 3)
                 else circleLoop fuel (x + 1) (y - 1) (p + 2 * (x - y) + 5))
    else []

/-- `steps(r)`: `x` starts at 0 and grows, `y` starts at `r` and never grows, so the loop ends within `r + 1` trips. -/
def circleSteps (r : Int) : List (Int × Int) := circleLoop (r.toNat + 1) 0 r (1 - r)

/-- The eight pixels of one step of CIRCLE, in order (44_raster_ops.md R211). -/
def octantPoints (xm ym : Int) (s : Int × Int) : List (Int × Int) :=
  [(xm + s.1, ym + s.2), (xm - s.1, ym + s.2), (xm + s.1, ym - s.2), (xm - s.1, ym - s.2),
   (xm + s.2, ym + s.1), (xm - s.2, ym + s.1), (xm + s.2, ym - s.1), (xm - s.2, ym - s.1)]

/-- The pixels of CIRCLE, in order. -/
def circlePoints (xm ym r : Int) : List (Int × Int) := (circleSteps r).flatMap (octantPoints xm ym)

/-- The four columns of one step of FILL_CIRCLE, in order: left edge, top, height (44_raster_ops.md R212). -/
def octantSpans (xm ym : Int) (s : Int × Int) : List (Int × Int × Int) :=
  [(xm + s.1, ym - s.2, 2 * s.2 + 1), (xm - s.1, ym - s.2, 2 * s.2 + 1),
   (xm + s.2, ym - s.1, 2 * s.1 + 1), (xm - s.2, ym - s.1, 2 * s.1 + 1)]

/-- The columns of FILL_CIRCLE, in order. -/
def circleSpans (xm ym r : Int) : List (Int × Int × Int) := (circleSteps r).flatMap (octantSpans xm ym)

end Sys2Proof.Machine
end

