-- ==== Sys2Proof/Machine/Flags.lean ====
section
/-! DEFINITION. The QPC has no status flags (10_state.md R35). What an operation tells its caller is its result; this
file sorts results into the classes of 60_exceptions.md R235. -/

namespace Sys2Proof.Machine

/-- Does a result end the operation that called? "the callee's result, if it is an error, ends the caller with the same
error" (30_encoding.md R106); a drop is not an error (60_exceptions.md R239). -/
def Result.isError : Result → Bool
  | .done => false
  | .value _ => false
  | .dropped => false
  | .valueError _ => true
  | .ioError _ => true
  | .refused _ => true

/-- Is the result the spec's own outcome `Refused` (60_exceptions.md R240)? A claim about the hardware excludes it. -/
def Result.isRefused : Result → Bool
  | .refused _ => true
  | .done => false
  | .value _ => false
  | .dropped => false
  | .valueError _ => false
  | .ioError _ => false

/-- The refusal of a port item that the decoder rejects: "requests the source gives no meaning" (60_exceptions.md R240).
A selector outside the table has the spec's cause; for the rest the cause is the model's own (log entry 14). -/
def refusedBy : DecodeError → Result
  | .unknownOperation => .refused .unknownOperation
  | .badOperands => .refused (.malformed .badOperands)
  | .notAFrame => .refused (.malformed .notAFrame)
  | .illFormed => .refused (.malformed .illFormed)

end Sys2Proof.Machine
end

