-- ==== Sys2Proof/Machine/Ops.lean ====
section
/-! DEFINITION. The named operations: the primitives of 00_scope.md R10, the bus oracle, the error exit
(60_exceptions.md R243), and how an operation becomes a step of the machine. -/

namespace Sys2Proof.Machine

/-- An operation of the pseudocode: from the state, the state it leaves and its result. -/
abbrev Op := State → State × Result

/-! ### Primitives (00_scope.md R10, R11) -/

/-- Append an event to the trace. -/
def emit (e : Event) (s : State) : State := { s with trace := s.trace ++ [e] }

/-- `cs(level)`: drive chip-select. -/
def cs (level : Bool) (s : State) : State := emit (.cs level) { s with csLevel := level }

/-- `pin_write(RST, level)` and the record of the level driven (10_state.md R36). -/
def pinWriteRst (level : Bool) (s : State) : State := emit (.rst level) { s with rstLevel := level }

/-- `delay_us(n)`: an event with no effect on state (60_exceptions.md R247). -/
def delayUs (n : Nat) (s : State) : State := emit (.delay n) s

/-- `warn(w)` (60_exceptions.md R238). -/
def warn (w : Warning) (s : State) : State := emit (.warn w) s

/-- The bus's answer to the `k`-th question from now: the listed one, else the free one (log entry 7). -/
def answerAt (s : State) (k : Nat) : BusAnswer := (s.answers[k]?).getD (Config.busAnswer (s.asked + k))

/-- The bus has answered one question. -/
def ask (s : State) : State := { s with answers := s.answers.tail, asked := s.asked + 1 }

/-- `submit(t)`: the transaction enters the trace whatever the answer (00_scope.md R11). -/
def submit (t : Transaction) (s : State) : BusAnswer × State := (answerAt s 0, emit (.tx t) (ask s))

/-- `claim(bus)`. -/
def claim (s : State) : BusAnswer × State := (answerAt s 0, emit .claim (ask s))

/-- `release(bus)`: it cannot fail. -/
def release (s : State) : State := emit .release s

/-- `seq.phase <- p` (10_state.md R33). -/
def setPhase (p : Phase) (s : State) : State := { s with seq := { s.seq with phase := p } }

/-! ### Results -/

/-- The error exit: chip-select released if it is low, the sequencer back to IDLE, the error as the result
(60_exceptions.md R243). The machine latches nothing, so there is nothing to return from (R244). -/
def raise (r : Result) : Op := fun s =>
  (setPhase .idle (if s.csLevel then s else cs Config.csDeassert s), r)

/-- Go on with `k` unless the operation before it ended in an error (30_encoding.md R106). -/
def andThen (x : State × Result) (k : Op) : State × Result := if x.2.isError then x else k x.1

/-- `require S.life = ACTIVE else Refused(not_active)` (60_exceptions.md R240). -/
def requireActive (op : Op) : Op := fun s => if s.life = .active then op s else (s, .refused .notActive)

/-- The inner operations of a composite, in order, up to the first error; `Done` if there is none (44_raster_ops.md). -/
def runAll : List Op → Op
  | [], s => (s, .done)
  | op :: rest, s => andThen (op s) (runAll rest)

/-! ### From an operation to a step -/

/-- An operation has ended with this result (00_scope.md R12). -/
def finish (x : State × Result) : Host.Outcome State Fault Refusal := .next { x.1 with result := some x.2 }

/-- A host operation or a frame that opens its own bracket: it starts with the sequencer IDLE (10_state.md R33); inside
an open colour transfer it would overlap another operation (70_reset_and_hazards.md R270, log entry 15). -/
def runOp (op : Op) (s : State) : Host.Outcome State Fault Refusal :=
  if s.seq.phase = .idle then finish (op s) else .refused .overlappingOperation

end Sys2Proof.Machine
end

