-- ==== Sys2Proof/Machine/Transport.lean ====
section
/-! DEFINITION. The Bus Transport (40_bus_transport.md): SUBMIT_COMMAND, SUBMIT_COLOR and the chunker's loop. -/

namespace Sys2Proof.Machine

/-- The ghosts after a command frame was sent (40_bus_transport.md R120, 10_state.md R34). -/
def noteSent (cmd : Byte) (p : List Byte) (s : State) : State :=
  match p with
  | [m] =>
    { s with
      txMadctl := if cmd = s.cfg.opMadctl then some m else s.txMadctl
      txColmod := if cmd = s.cfg.opColmod then some m else s.txColmod }
  | _ => s

/-- SUBMIT_COMMAND (40_bus_transport.md R120). -/
def submitCommand (cmd : Byte) (p : List Byte) : Op := requireActive fun s =>
  if Config.busMax < p.length then (s, .refused .payloadTooLong)
  else
    match submit (commandFrame s.cfg s.bus.addrBits cmd p) (cs Config.csAssert (setPhase .cmd s)) with
    | (.fail st, s1) => raise (.ioError st) s1
    | (.ok, s1) => (noteSent cmd p (setPhase .idle (cs Config.csDeassert s1)), .done)

/-- The part of SUBMIT_COLOR before its loop, for a payload of `len` bytes: the bracket opens and the priming frame is
sent (40_bus_transport.md R121). -/
def openColor (len : Nat) : Op := requireActive fun s =>
  match submit (primingFrame s.cfg s.bus.addrBits) (setPhase .prime (cs Config.csAssert s)) with
  | (.fail st, s1) => raise (.ioError st) s1
  | (.ok, s1) => ({ s1 with seq := { phase := .chunk, off := 0, rem := len } }, .done)

/-- One trip of SUBMIT_COLOR's loop with chunk `d`, and the end of the bracket when nothing remains
(40_bus_transport.md R121). -/
def sendChunk (d : List Byte) : Op := fun s =>
  match submit (dataFrame d) s with
  | (.fail st, s1) => raise (.ioError st) s1
  | (.ok, s1) =>
    let s2 := { s1 with seq := { s1.seq with off := s1.seq.off + d.length, rem := s1.seq.rem - d.length } }
    if s2.seq.rem = 0 then (setPhase .idle (cs Config.csDeassert s2), .done) else (s2, .done)

/-- The loop of SUBMIT_COLOR, at most `fuel` trips (40_bus_transport.md R121). -/
def streamLoop (p : List Byte) : Nat → Op
  | 0, s => (s, .done)
  | fuel + 1, s =>
    andThen (sendChunk (slice p s.seq.off (min Config.busMax s.seq.rem)) s) fun s1 =>
      if s1.seq.rem = 0 then (s1, .done) else streamLoop p fuel s1

/-- SUBMIT_COLOR (40_bus_transport.md R121): the loop makes `chunkCount` trips (R122). -/
def submitColor (p : List Byte) : Op := fun s =>
  andThen (openColor p.length s) (streamLoop p (chunkCount p.length))

/-! ### The operations -/

/-- SUBMIT_COMMAND, R120. -/
def execSubmitCommand (cmd : Byte) (p : List Byte) (s : State) : Host.Outcome State Fault Refusal :=
  runOp (submitCommand cmd p) s

/-- SUBMIT_COLOR, R121. -/
def execSubmitColor (p : List Byte) (s : State) : Host.Outcome State Fault Refusal := runOp (submitColor p) s

end Sys2Proof.Machine
end

