-- ==== Sys2Proof/Machine/Panel.lean ====
section
/-! DEFINITION. The Panel Protocol operations (42_panel_protocol_ops.md). Each that changes the mirror computes the new
value, transmits it, and commits only after the transmission succeeded (R179). -/

namespace Sys2Proof.Machine

/-! ### Rotation -/

/-- The state SET_ROTATION commits (42_panel_protocol_ops.md R160). -/
def commitRotation (i : BitVec 2) (e : RotEntry) (m : Byte) (s : State) : State :=
  { s with
    madctl := m, rotation := i, width := e.width, height := e.height, xGap := e.colstart, yGap := e.rowstart }

/-- SET_ROTATION (R160). -/
def setRotation (i : BitVec 2) : Op := requireActive fun s =>
  let e := rtRead s.rt i
  let m := rotationMadctl s.madctl e
  andThen (submitCommand s.cfg.opMadctl [m] s) fun s1 => (commitRotation i e m s1, .done)

/-- SET_ROTATION_TABLE (R161): a failed transmission keeps the old table. -/
def setRotationTable (i : BitVec 2) (t : RotTable) : Op := requireActive fun s =>
  match setRotation i { s with rt := t } with
  | (s1, .ioError st) => ({ s1 with rt := s.rt }, .ioError st)
  | x => x

/-! ### Window -/

/-- SET_WINDOW on `Int` coordinates (R162). -/
def setWindow (x0 y0 x1 y1 : Int) : Op := requireActive fun s =>
  if windowOk s.width s.height x0 y0 x1 y1 then
    andThen (submitCommand s.cfg.opCaset (coord4 s.cfg (coord x0) (coord x1)) s) fun s1 =>
      let y := submitCommand s1.cfg.opRaset (coord4 s1.cfg (coord y0) (coord y1)) s1
      if y.2.isError then ({ y.1 with win := none }, y.2)
      else ({ y.1 with win := some ⟨coord x0, coord y0, coord x1, coord y1⟩ }, .done)
  else (s, .dropped)

/-! ### Pixel format and colour space -/

/-- SET_PIXEL_FORMAT (R163). -/
def setPixelFormat (b : Int) : Op := requireActive fun s =>
  match depthOf b with
  | none => (s, .valueError .unsupportedBitDepth)
  | some d =>
    andThen (submitCommand s.cfg.opColmod [colmodCode d] s) fun s1 =>
      ({ s1 with bpp := d, colmod := colmodCode d }, .done)

/-- SET_COLOR_SPACE (R164). -/
def setColorSpace (k : Int) : Op := requireActive fun s =>
  match colorSpaceOf s.cfg k with
  | none => (s, .valueError .unsupportedColorSpace)
  | some c =>
    let m := (s.madctl &&& ~~~s.cfg.madctlBgr) ||| colorSpaceBits s.cfg c
    andThen (submitCommand s.cfg.opMadctl [m] s) fun s1 => ({ s1 with madctl := m, colorSpace := c }, .done)

/-! ### Raw command, mirror, swap, gap -/

/-- SEND_CMD (R165). -/
def sendCmd (cmd c : Byte) (n : Nat) : Op := requireActive fun s =>
  if 1 < n then (s, .refused .badLength) else submitCommand cmd (if n = 0 then [] else [c]) s

/-- Transmit a new MADCTL byte and commit it: the tail of MIRROR and SWAP_XY (R166, R167). -/
def sendMadctl (m : Byte) : Op := fun s =>
  andThen (submitCommand s.cfg.opMadctl [m] s) fun s1 => ({ s1 with madctl := m }, .done)

/-- MIRROR (R166). -/
def mirror (mx my : Bool) : Op := requireActive fun s => sendMadctl (mirrorMadctl s.cfg s.madctl mx my) s

/-- SWAP_XY (R167). -/
def swapXy (sw : Bool) : Op := requireActive fun s => sendMadctl (writeMask s.madctl s.cfg.madctlMv sw) s

/-- SET_GAP (R168). -/
def setGap (gx gy : Half) : Op := requireActive fun s => ({ s with xGap := gx, yGap := gy }, .done)

/-! ### Brightness and scroll -/

/-- BRIGHTNESS on its `i32` operand's value (R174). -/
def brightness (b : Int) : Op := requireActive fun s =>
  submitCommand s.cfg.opWrdisbv [brightMap s.cfg (clampPercent b)] s

/-- The offset VSCROLL_START sends (R178). -/
def scrollOffset (off : Half) (wrap : Option Bool) (s : State) : Half :=
  match wrap with
  | some true => Config.vscrollWrap off (visible s.toQpc)
  | some false => off
  | none => off

/-- VSCROLL_START (R178). -/
def vscrollStart (off : Half) (wrap : Option Bool) : Op := requireActive fun s =>
  submitCommand s.cfg.opVscsad (be16 (scrollOffset off wrap s)) s

/-- VSCROLL_AREA (R177). -/
def vscrollArea (tfa vsa bfa : Half) : Op := requireActive fun s =>
  submitCommand s.cfg.opVscrdef (be16 tfa ++ be16 vsa ++ be16 bfa) s

/-! ### The operations -/

/-- SET_ROTATION, R160. -/
def execSetRotation (i : BitVec 2) (s : State) : Host.Outcome State Fault Refusal := runOp (setRotation i) s

/-- SET_ROTATION_TABLE, R161. -/
def execSetRotationTable (i : BitVec 2) (t : RotTable) (s : State) : Host.Outcome State Fault Refusal :=
  runOp (setRotationTable i t) s

/-- SET_WINDOW, R162. -/
def execSetWindow (x0 y0 x1 y1 : Half) (s : State) : Host.Outcome State Fault Refusal :=
  runOp (setWindow (int x0) (int y0) (int x1) (int y1)) s

/-- SET_PIXEL_FORMAT, R163. -/
def execSetPixelFormat (b : Int) (s : State) : Host.Outcome State Fault Refusal := runOp (setPixelFormat b) s

/-- SET_COLOR_SPACE, R164. -/
def execSetColorSpace (k : Int) (s : State) : Host.Outcome State Fault Refusal := runOp (setColorSpace k) s

/-- SEND_CMD, R165. -/
def execSendCmd (cmd c : Byte) (n : Nat) (s : State) : Host.Outcome State Fault Refusal := runOp (sendCmd cmd c n) s

/-- MIRROR, R166. -/
def execMirror (mx my : Bool) (s : State) : Host.Outcome State Fault Refusal := runOp (mirror mx my) s

/-- SWAP_XY, R167. -/
def execSwapXy (sw : Bool) (s : State) : Host.Outcome State Fault Refusal := runOp (swapXy sw) s

/-- SET_GAP, R168. -/
def execSetGap (gx gy : Half) (s : State) : Host.Outcome State Fault Refusal := runOp (setGap gx gy) s

/-- INVERT_COLOR, R169. -/
def execInvertColor (v : Bool) (s : State) : Host.Outcome State Fault Refusal :=
  runOp (submitCommand (if v then s.cfg.opInvon else s.cfg.opInvoff) []) s

/-- DISP_ON, R170. -/
def execDispOn (s : State) : Host.Outcome State Fault Refusal := runOp (submitCommand s.cfg.opDispon []) s

/-- DISP_OFF, R171. -/
def execDispOff (s : State) : Host.Outcome State Fault Refusal := runOp (submitCommand s.cfg.opDispoff []) s

/-- BACKLIGHT_ON, R172. -/
def execBacklightOn (s : State) : Host.Outcome State Fault Refusal :=
  runOp (submitCommand s.cfg.opWrdisbv [Config.brightByteMax]) s

/-- BACKLIGHT_OFF, R173. -/
def execBacklightOff (s : State) : Host.Outcome State Fault Refusal :=
  runOp (submitCommand s.cfg.opWrdisbv [Config.brightByteMin]) s

/-- BRIGHTNESS, R174. -/
def execBrightness (b : I32) (s : State) : Host.Outcome State Fault Refusal := runOp (brightness b.toInt) s

/-- WIDTH, R175. -/
def execWidth (s : State) : Host.Outcome State Fault Refusal :=
  runOp (requireActive fun s => (s, .value s.width)) s

/-- HEIGHT, R176. -/
def execHeight (s : State) : Host.Outcome State Fault Refusal :=
  runOp (requireActive fun s => (s, .value s.height)) s

/-- VSCROLL_AREA, R177. -/
def execVscrollArea (tfa vsa bfa : Half) (s : State) : Host.Outcome State Fault Refusal :=
  runOp (vscrollArea tfa vsa bfa) s

/-- VSCROLL_START, R178. -/
def execVscrollStart (off : Half) (wrap : Option Bool) (s : State) : Host.Outcome State Fault Refusal :=
  runOp (vscrollStart off wrap) s

end Sys2Proof.Machine
end

