-- ==== Sys2Proof/Machine/Lifecycle.lean ====
section
/-! DEFINITION. The lifecycle operations (45_lifecycle_ops.md): this machine's own resets and its set-up. -/

namespace Sys2Proof.Machine

/-- Is the native size the known special geometry or its transpose (45_lifecycle_ops.md R221)? -/
def specialGeometry (P : Params) : Bool :=
  (P.nativeW == Config.specialW && P.nativeH == Config.specialH) ||
    (P.nativeW == Config.specialH && P.nativeH == Config.specialW)

/-- The generic rotation table (R221): rotations 0 and 2 keep width and height, 1 and 3 swap them, no gaps. -/
def genericTable (P : Params) : RotTable :=
  { e0 := ⟨P.genericRotMadctl.e0, P.nativeW, P.nativeH, 0, 0⟩
    e1 := ⟨P.genericRotMadctl.e1, P.nativeH, P.nativeW, 0, 0⟩
    e2 := ⟨P.genericRotMadctl.e2, P.nativeW, P.nativeH, 0, 0⟩
    e3 := ⟨P.genericRotMadctl.e3, P.nativeH, P.nativeW, 0, 0⟩ }

/-- `establish_table` (R221). -/
def establishTable (s : State) : State :=
  if specialGeometry s.cfg then { s with rt := s.cfg.vendorRotTable }
  else warn .unknownGeometry { s with rt := genericTable s.cfg }

/-- The bus handle and the pins after a successful claim (R220). -/
def bindBus (h : BusHandle) (rst : Option Nat) (rl : Bool) (s : State) : State :=
  { s with
    bus := h, busClaimed := true, csLevel := Config.csDeassert
    rstPresent := rst.isSome, rstActive := rl, rstLevel := !rl }

/-- The mirror before the first rotation (R220): COLMOD is mirrored, not transmitted. -/
def startMirror (k : ColorSpace) (d : Depth) (s : State) : State :=
  { s with
    colorSpace := k, bpp := d, colmod := colmodCode d, madctl := colorSpaceBits s.cfg k
    win := none, txMadctl := none, txColmod := none, life := .active }

/-- A CONSTRUCT whose first rotation failed: the bus is given back and the object is not created, every field as it was
before (R220, 10_state.md R41; log entry 13). -/
def undoConstruct (before s : State) : State :=
  { release s with toQpc := { before.toQpc with life := .unbound, busClaimed := false } }

/-- CONSTRUCT (R220). -/
def construct (h : BusHandle) (rst : Option Nat) (rl : Bool) (k b : Int) : Op := fun s =>
  if s.life ≠ .unbound then (s, .refused .alreadyConstructed)
  else
    match colorSpaceOf s.cfg k, depthOf b with
    | none, _ => (s, .valueError .unsupportedColorSpace)
    | some _, none => (s, .valueError .unsupportedBitDepth)
    | some c, some d =>
      match claim s with
      | (.fail st, s1) => (s1, .ioError st)
      | (.ok, s1) =>
        match setRotation 0 (startMirror c d (establishTable (bindBus h rst rl s1))) with
        | (s2, .ioError st) => (undoConstruct s s2, .ioError st)
        | x => x

/-- DEINIT (R222). -/
def deinit : Op := fun s =>
  match s.life with
  | .released => (s, .done)
  | .active => ({ release s with busClaimed := false, life := .released }, .done)
  | .unbound => (s, .refused .notActive)

/-- The reset pulse (R223): assert, wait, release, wait. -/
def resetPulse (s : State) : State :=
  delayUs s.cfg.resetReleaseUs (pinWriteRst (!s.rstActive) (delayUs s.cfg.resetAssertUs (pinWriteRst s.rstActive s)))

/-- One step of `INIT_SEQ` (R224) or of the software reset (R223). -/
def initStep : InitStep → Op
  | .frame c p, s => submitCommand c p s
  | .sendColmod, s => submitCommand s.cfg.opColmod [s.colmod] s
  | .sendMadctl, s => submitCommand s.cfg.opMadctl [s.madctl] s
  | .delay n, s => (delayUs n s, .done)

/-- INIT (R224): the steps of `INIT_SEQ` up to the first frame that fails. -/
def init : Op := requireActive fun s => runAll (s.cfg.initSeq.map initStep) s

/-- RESET without a reset pin (R223): nothing under `noop`; under `swreset` the steps of the parameter, the rule this
model supplies (log entry 9), of which the empty list is the pseudocode's `skip`. -/
def resetWithoutPin : Op := fun s =>
  match s.cfg.resetNoPin with
  | .noop => (s, .done)
  | .swreset => runAll (s.cfg.swResetSteps.map initStep) s

/-- RESET (R223): after the pulse, or what stands in its place, the window and the ghosts are forgotten. -/
def resetPanel : Op := requireActive fun s =>
  andThen (if s.rstPresent then (resetPulse s, .done) else resetWithoutPin s) fun s1 =>
    ({ s1 with win := none, txMadctl := none, txColmod := none }, .done)

/-! ### The operations -/

/-- CONSTRUCT, R220. -/
def execConstruct (h : BusHandle) (rst : Option Nat) (rl : Bool) (k b : Int) (s : State) :
    Host.Outcome State Fault Refusal :=
  runOp (construct h rst rl k b) s

/-- DEINIT, R222. -/
def execDeinit (s : State) : Host.Outcome State Fault Refusal := runOp deinit s

/-- RESET, R223. -/
def execReset (s : State) : Host.Outcome State Fault Refusal := runOp resetPanel s

/-- INIT, R224. -/
def execInit (s : State) : Host.Outcome State Fault Refusal := runOp init s

end Sys2Proof.Machine
end

