-- ==== Sys2Proof/Machine/Drawing.lean ====
section
/-! DEFINITION. The window-and-stream drawing operations (43_drawing_ops.md). Their pseudocode is on `Int`: one
operation may call another with a coordinate that is no u16. -/

namespace Sys2Proof.Machine

/-- `draw`: set the window, then stream the payload (43_drawing_ops.md R190). -/
def draw (a0 b0 a1 b1 : Int) (p : List Byte) : Op := fun s =>
  let w := setWindow a0 b0 a1 b1 s
  if w.2.isError then w
  else if w.2 = .dropped ∧ w.1.cfg.streamAfterDrop = .skip then (w.1, .dropped)
  else andThen (submitColor p w.1) fun s1 => (s1, w.2)

/-- PIXEL (R191). -/
def pixel (x y : Int) (c : Half) : Op := requireActive fun s => draw x y x y (col2 s.cfg c) s

/-- FILL (R192). -/
def fill (c : Half) : Op := requireActive fun s =>
  if s.width = 0 ∨ s.height = 0 then (s, .dropped)
  else draw 0 0 (int s.width - 1) (int s.height - 1) (rep (col2 s.cfg c) (s.width.toNat * s.height.toNat)) s

/-- FILL_RECT (R193). -/
def fillRect (x y w h : Int) (c : Half) : Op := requireActive fun s =>
  let w' := clip x w (int s.width)
  let h' := clip y h (int s.height)
  if w' = 0 ∨ h' = 0 then (s, .dropped)
  else draw x y (x + w' - 1) (y + h' - 1) (rep (col2 s.cfg c) (w' * h').toNat) s

/-- HLINE (R194). -/
def hline (x y w : Int) (c : Half) : Op := requireActive fun s =>
  let w' := clip x w (int s.width)
  if w' = 0 then (s, .dropped)
  else if w' = 1 then pixel x y c s
  else draw x y (x + w' - 1) y (rep (col2 s.cfg c) w'.toNat) s

/-- VLINE (R195). -/
def vline (x y h : Int) (c : Half) : Op := requireActive fun s =>
  let h' := clip y h (int s.height)
  if h' = 0 then (s, .dropped)
  else if h' = 1 then pixel x y c s
  else draw x y x (y + h' - 1) (rep (col2 s.cfg c) h'.toNat) s

/-- The number of bytes BITMAP streams (R196). -/
def bitmapLength (x0 y0 x1 y1 : Half) (s : State) : Nat :=
  (x1.toNat - x0.toNat) * (y1.toNat - y0.toNat) * bytesPerPixel s.bpp

/-- BITMAP (R196); a short buffer is `Refused(short_buffer)` (70_reset_and_hazards.md R265). -/
def bitmap (x0 y0 x1 y1 : Half) (buf : List Byte) : Op := requireActive fun s =>
  if x1.toNat ≤ x0.toNat ∨ y1.toNat ≤ y0.toNat then (s, .dropped)
  else
    match memRead buf 0 (bitmapLength x0 y0 x1 y1 s) with
    | none => (s, .refused .shortBuffer)
    | some p =>
      draw (int x0 + int s.xGap) (int y0 + int s.yGap) (int x1 + int s.xGap - 1) (int y1 + int s.yGap - 1) p s

/-! ### The operations -/

/-- PIXEL, R191. -/
def execPixel (x y c : Half) (s : State) : Host.Outcome State Fault Refusal := runOp (pixel (int x) (int y) c) s

/-- FILL, R192. -/
def execFill (c : Half) (s : State) : Host.Outcome State Fault Refusal := runOp (fill c) s

/-- FILL_RECT, R193. -/
def execFillRect (x y w h c : Half) (s : State) : Host.Outcome State Fault Refusal :=
  runOp (fillRect (int x) (int y) (int w) (int h) c) s

/-- HLINE, R194. -/
def execHline (x y w c : Half) (s : State) : Host.Outcome State Fault Refusal :=
  runOp (hline (int x) (int y) (int w) c) s

/-- VLINE, R195. -/
def execVline (x y h c : Half) (s : State) : Host.Outcome State Fault Refusal :=
  runOp (vline (int x) (int y) (int h) c) s

/-- BITMAP, R196. -/
def execBitmap (x0 y0 x1 y1 : Half) (buf : List Byte) (s : State) : Host.Outcome State Fault Refusal :=
  runOp (bitmap x0 y0 x1 y1 buf) s

end Sys2Proof.Machine
end

