-- ==== Sys2Proof/Machine/Raster.lean ====
section
/-! DEFINITION. The composite raster operations (44_raster_ops.md): fixed sequences of PIXEL, HLINE and VLINE. -/

namespace Sys2Proof.Machine

/-- RECT (R210). -/
def rect (x y w h : Half) (c : Half) : Op := requireActive fun s =>
  if w = 0 ∨ h = 0 then (s, .dropped)
  else
    runAll
      [hline (int x) (int y) (int w) c,
       hline (int x) (int y + int h - 1) (int w) c,
       vline (int x) (int y) (int h) c,
       vline (int x + int w - 1) (int y) (int h) c] s

/-- CIRCLE (R211). -/
def circle (xm ym r : Int) (c : Half) : Op := requireActive fun s =>
  if r < 0 then (s, .dropped)
  else runAll ((circlePoints xm ym r).map fun q => pixel q.1 q.2 c) s

/-- FILL_CIRCLE (R212). -/
def fillCircle (xm ym r : Int) (c : Half) : Op := requireActive fun s =>
  if r < 0 then (s, .dropped)
  else runAll ((circleSpans xm ym r).map fun q => vline q.1 q.2.1 q.2.2 c) s

/-! ### The operations -/

/-- RECT, R210. -/
def execRect (x y w h c : Half) (s : State) : Host.Outcome State Fault Refusal := runOp (rect x y w h c) s

/-- CIRCLE, R211. -/
def execCircle (xm ym r : I32) (c : Half) (s : State) : Host.Outcome State Fault Refusal :=
  runOp (circle xm.toInt ym.toInt r.toInt c) s

/-- FILL_CIRCLE, R212. -/
def execFillCircle (xm ym r : I32) (c : Half) (s : State) : Host.Outcome State Fault Refusal :=
  runOp (fillCircle xm.toInt ym.toInt r.toInt c) s

end Sys2Proof.Machine
end

