-- ==== Sys2Proof/Machine/Wire.lean ====
section
/-! DEFINITION. The wire panel commands (41_panel_wire_commands.md): each command row is the SUBMIT_COMMAND its rule
writes; RAMWR is the first `submit` of SUBMIT_COLOR and DATA one trip of its loop (log entry 15). -/

namespace Sys2Proof.Machine

/-- MADCTL, R141. -/
def execMadctl (m : Byte) (s : State) : Host.Outcome State Fault Refusal :=
  runOp (submitCommand s.cfg.opMadctl [m]) s

/-- CASET, R142. -/
def execCaset (x0 x1 : Half) (s : State) : Host.Outcome State Fault Refusal :=
  runOp (submitCommand s.cfg.opCaset (coord4 s.cfg x0 x1)) s

/-- RASET, R143. -/
def execRaset (y0 y1 : Half) (s : State) : Host.Outcome State Fault Refusal :=
  runOp (submitCommand s.cfg.opRaset (coord4 s.cfg y0 y1)) s

/-- COLMOD, R145. -/
def execColmod (code : Byte) (s : State) : Host.Outcome State Fault Refusal :=
  runOp (submitCommand s.cfg.opColmod [code]) s

/-- SLPIN, R146. -/
def execSlpin (s : State) : Host.Outcome State Fault Refusal := runOp (submitCommand s.cfg.opSlpin []) s

/-- SLPOUT, R147. -/
def execSlpout (s : State) : Host.Outcome State Fault Refusal := runOp (submitCommand s.cfg.opSlpout []) s

/-- DISPON, R148. -/
def execDispon (s : State) : Host.Outcome State Fault Refusal := runOp (submitCommand s.cfg.opDispon []) s

/-- DISPOFF, R149. -/
def execDispoff (s : State) : Host.Outcome State Fault Refusal := runOp (submitCommand s.cfg.opDispoff []) s

/-- INVON, R150. -/
def execInvon (s : State) : Host.Outcome State Fault Refusal := runOp (submitCommand s.cfg.opInvon []) s

/-- INVOFF, R151. -/
def execInvoff (s : State) : Host.Outcome State Fault Refusal := runOp (submitCommand s.cfg.opInvoff []) s

/-- WRDISBV, R152. -/
def execWrdisbv (v : Byte) (s : State) : Host.Outcome State Fault Refusal :=
  runOp (submitCommand s.cfg.opWrdisbv [v]) s

/-- VSCRDEF, R153. -/
def execVscrdef (tfa vsa bfa : Half) (s : State) : Host.Outcome State Fault Refusal :=
  runOp (submitCommand s.cfg.opVscrdef (be16 tfa ++ be16 vsa ++ be16 bfa)) s

/-- VSCSAD, R154. -/
def execVscsad (off : Half) (s : State) : Host.Outcome State Fault Refusal :=
  runOp (submitCommand s.cfg.opVscsad (be16 off)) s

/-- RAMWR, R144: the bracket of a transfer of `len` pixel bytes opens. -/
def execRamwr (len : Nat) (s : State) : Host.Outcome State Fault Refusal := runOp (openColor len) s

/-- DATA, R155: one trip of the loop. It belongs to an open colour transfer and carries its next chunk. -/
def execData (d : List Byte) (s : State) : Host.Outcome State Fault Refusal :=
  if s.life = .active then
    if s.seq.phase = .chunk then
      if d.length = min Config.busMax s.seq.rem then finish (sendChunk d s) else .fault .notTheNextChunk
    else .fault .dataOutsideBracket
  else finish (s, .refused .notActive)

end Sys2Proof.Machine
end

