-- ==== Sys2Proof/Machine/Dispatch.lean ====
section
/-! DEFINITION. The dispatch: one arm per constructor of `Instr`, one meaning per arm. -/

namespace Sys2Proof.Machine

def exec (i : Instr) (s : State) : Host.Outcome State Fault Refusal :=
  match i with
  | .submitCommand cmd p => Sys2Proof.Machine.execSubmitCommand cmd p s
  | .submitColor p => Sys2Proof.Machine.execSubmitColor p s
  | .setRotation idx => Sys2Proof.Machine.execSetRotation idx s
  | .setRotationTable idx t => Sys2Proof.Machine.execSetRotationTable idx t s
  | .setWindow x0 y0 x1 y1 => Sys2Proof.Machine.execSetWindow x0 y0 x1 y1 s
  | .setPixelFormat b => Sys2Proof.Machine.execSetPixelFormat b s
  | .setColorSpace k => Sys2Proof.Machine.execSetColorSpace k s
  | .sendCmd cmd c n => Sys2Proof.Machine.execSendCmd cmd c n s
  | .mirror mx my => Sys2Proof.Machine.execMirror mx my s
  | .swapXy sw => Sys2Proof.Machine.execSwapXy sw s
  | .setGap gx gy => Sys2Proof.Machine.execSetGap gx gy s
  | .invertColor v => Sys2Proof.Machine.execInvertColor v s
  | .dispOn => Sys2Proof.Machine.execDispOn s
  | .dispOff => Sys2Proof.Machine.execDispOff s
  | .backlightOn => Sys2Proof.Machine.execBacklightOn s
  | .backlightOff => Sys2Proof.Machine.execBacklightOff s
  | .brightness b => Sys2Proof.Machine.execBrightness b s
  | .width => Sys2Proof.Machine.execWidth s
  | .height => Sys2Proof.Machine.execHeight s
  | .vscrollArea tfa vsa bfa => Sys2Proof.Machine.execVscrollArea tfa vsa bfa s
  | .vscrollStart off wrap => Sys2Proof.Machine.execVscrollStart off wrap s
  | .pixel x y c => Sys2Proof.Machine.execPixel x y c s
  | .fill c => Sys2Proof.Machine.execFill c s
  | .fillRect x y w h c => Sys2Proof.Machine.execFillRect x y w h c s
  | .hline x y w c => Sys2Proof.Machine.execHline x y w c s
  | .vline x y h c => Sys2Proof.Machine.execVline x y h c s
  | .bitmap x0 y0 x1 y1 buf => Sys2Proof.Machine.execBitmap x0 y0 x1 y1 buf s
  | .rect x y w h c => Sys2Proof.Machine.execRect x y w h c s
  | .circle xm ym r c => Sys2Proof.Machine.execCircle xm ym r c s
  | .fillCircle xm ym r c => Sys2Proof.Machine.execFillCircle xm ym r c s
  | .construct bus rst rl k b => Sys2Proof.Machine.execConstruct bus rst rl k b s
  | .deinit => Sys2Proof.Machine.execDeinit s
  | .reset => Sys2Proof.Machine.execReset s
  | .init => Sys2Proof.Machine.execInit s
  | .madctl m => Sys2Proof.Machine.execMadctl m s
  | .caset x0 x1 => Sys2Proof.Machine.execCaset x0 x1 s
  | .raset y0 y1 => Sys2Proof.Machine.execRaset y0 y1 s
  | .colmod code => Sys2Proof.Machine.execColmod code s
  | .slpin => Sys2Proof.Machine.execSlpin s
  | .slpout => Sys2Proof.Machine.execSlpout s
  | .dispon => Sys2Proof.Machine.execDispon s
  | .dispoff => Sys2Proof.Machine.execDispoff s
  | .invon => Sys2Proof.Machine.execInvon s
  | .invoff => Sys2Proof.Machine.execInvoff s
  | .wrdisbv v => Sys2Proof.Machine.execWrdisbv v s
  | .vscrdef tfa vsa bfa => Sys2Proof.Machine.execVscrdef tfa vsa bfa s
  | .vscsad off => Sys2Proof.Machine.execVscsad off s
  | .ramwr len => Sys2Proof.Machine.execRamwr len s
  | .data d => Sys2Proof.Machine.execData d s

end Sys2Proof.Machine
end

