-- ==== Sys2Proof/Machine/Step.lean ====
section
/-! DEFINITION. One step: the machine takes the oldest request of the port and performs it. -/

namespace Sys2Proof.Machine

/-- One step. With no request the machine waits (70_reset_and_hazards.md R260). An item without a meaning ends `Refused`
with no event and no state change (30_encoding.md R101, 60_exceptions.md R240): the step function is total. -/
def step (s : State) : Host.Outcome State Fault Refusal :=
  match s.port with
  | [] => .next s
  | item :: rest =>
    match decode s.cfg item with
    | .ok i => exec i { s with port := rest }
    | .error e => finish ({ s with port := rest }, refusedBy e)

/-- The state with the instruction of an opcode-table word as the port's next request (log entries 14 and 17). -/
def State.withFetchWord (s : State) (nbits w : Nat) : State := { s with port := tableItem s.cfg nbits w :: s.port }

end Sys2Proof.Machine
end

