-- ==== Sys2Proof/Safety.lean ====
section
/-! DEFINITION. The terms claims use: when an operation may run, what a sent frame and a streamed payload leave behind,
the invariants of the spec, the chip-select law on traces, who may write which register. -/

namespace Sys2Proof.Safety

open Sys2Proof.Machine

/-! ### Hypotheses -/

/-- The machine accepts an operation: the object is ACTIVE and no colour transfer is open (60_exceptions.md R246,
10_state.md R33). -/
abbrev Ready (s : State) : Prop := s.life = .active ∧ s.seq.phase = .idle

/-- The bus answers `ok` to the next `n` questions (40_bus_transport.md R124: the answers are an oracle). -/
abbrev BusOk (s : State) (n : Nat) : Prop := ∀ k, k < n → answerAt s k = .ok

/-! ### What transmissions leave behind -/

/-- The three events of a one-frame bracket (40_bus_transport.md R120). -/
def bracket (t : Transaction) : List Event := [.cs false, .tx t, .cs true]

/-- The events of a colour transfer (40_bus_transport.md R121): one bracket, the priming frame, the data frames. -/
def colorEvents (s : State) (p : List Byte) : List Event :=
  [.cs false, .tx (primingFrame s.cfg s.bus.addrBits)] ++ (chunks p).map (fun d => .tx (dataFrame d)) ++ [.cs true]

/-- The state after one command frame that the bus refused: a closed bracket and one answer used, nothing else. -/
def failedCommand (c : Byte) (p : List Byte) (s : State) : State :=
  { s with
    trace := s.trace ++ bracket (commandFrame s.cfg s.bus.addrBits c p)
    csLevel := true, answers := s.answers.tail, asked := s.asked + 1 }

/-- The state after one command frame that the bus took: the ghosts follow a one-byte MADCTL or COLMOD frame. -/
def sentCommand (c : Byte) (p : List Byte) (s : State) : State :=
  { failedCommand c p s with
    txMadctl := if p.length = 1 ∧ c = s.cfg.opMadctl then p.head? else s.txMadctl
    txColmod := if p.length = 1 ∧ c = s.cfg.opColmod then p.head? else s.txColmod }

/-- The state after a valid window was sent: CASET, RASET, and `win` (42_panel_protocol_ops.md R162). -/
def sentWindow (x0 y0 x1 y1 : Int) (s : State) : State :=
  { sentCommand s.cfg.opRaset (coord4 s.cfg (coord y0) (coord y1))
      (sentCommand s.cfg.opCaset (coord4 s.cfg (coord x0) (coord x1)) s) with
    win := some ⟨coord x0, coord y0, coord x1, coord y1⟩ }

/-- The state after a payload was streamed: one answer for the priming frame, one for each chunk. -/
def streamed (p : List Byte) (s : State) : State :=
  { s with
    trace := s.trace ++ colorEvents s p
    csLevel := true, seq := { phase := .idle, off := p.length, rem := 0 }
    answers := s.answers.drop (chunkCount p.length + 1), asked := s.asked + (chunkCount p.length + 1) }

/-- A window inside the panel: the check of 42_panel_protocol_ops.md R162 in integer arithmetic, in which a negative or
over-wide sum fails and nothing wraps (30_encoding.md R105). -/
abbrev Inside (s : State) (x0 y0 x1 y1 : Int) : Prop :=
  0 ≤ x0 ∧ x0 ≤ x1 ∧ x1 < (s.width.toNat : Int) ∧ 0 ≤ y0 ∧ y0 ≤ y1 ∧ y1 < (s.height.toNat : Int)

/-- The state and result of `draw` when the bus takes every frame (43_drawing_ops.md R190): a window inside the panel is
sent and the payload streamed; any other is dropped, and `P_STREAM_AFTER_DROP` decides about the payload. -/
def drawn (x0 y0 x1 y1 : Int) (p : List Byte) (s : State) : State × Result :=
  if Inside s x0 y0 x1 y1 then (streamed p (sentWindow x0 y0 x1 y1 s), .done)
  else if s.cfg.streamAfterDrop = .skip then (s, .dropped)
  else (streamed p s, .dropped)

/-- How many answers `draw` uses at most. -/
def drawAsks (p : List Byte) : Nat := chunkCount p.length + 3

/-- The pixels of one colour. -/
def pixels (s : State) (c : Half) (n : Int) : List Byte := (List.replicate n.toNat (col2 s.cfg c)).flatten

/-- The pixels left of a length `n` from `a` on, cut at the far edge `B` (43_drawing_ops.md R197). -/
def cut (a n B : Int) : Int := if B ≤ a then 0 else min n (B - a)

/-! ### Drawing operations as lists of `draw`s -/

/-- One call of `draw` (43_drawing_ops.md R190). -/
structure Draw where
  x0 : Int
  y0 : Int
  x1 : Int
  y1 : Int
  p : List Byte
deriving DecidableEq, Repr

/-- The call that HLINE makes, if any (43_drawing_ops.md R194). -/
def rowDraw (x y w : Int) (c : Half) (s : State) : Option Draw :=
  if cut x w s.width.toNat = 0 then none
  else some ⟨x, y, x + cut x w s.width.toNat - 1, y, pixels s c (cut x w s.width.toNat)⟩

/-- The call that VLINE makes, if any (43_drawing_ops.md R195). -/
def columnDraw (x y h : Int) (c : Half) (s : State) : Option Draw :=
  if cut y h s.height.toNat = 0 then none
  else some ⟨x, y, x, y + cut y h s.height.toNat - 1, pixels s c (cut y h s.height.toNat)⟩

/-- The state and result of a call when the bus takes every frame; without a call nothing is drawn. -/
def drawnIf (d : Option Draw) (s : State) : State × Result :=
  match d with
  | none => (s, .dropped)
  | some d => drawn d.x0 d.y0 d.x1 d.y1 d.p s

/-- The state and result of HLINE when the bus takes every frame. -/
def hlineDrawn (x y w : Int) (c : Half) (s : State) : State × Result := drawnIf (rowDraw x y w c s) s

/-- The state and result of VLINE when the bus takes every frame. -/
def vlineDrawn (x y h : Int) (c : Half) (s : State) : State × Result := drawnIf (columnDraw x y h c s) s

/-- The calls of `draw` that an operation makes in this state, in order (43_drawing_ops.md R191 to R196,
44_raster_ops.md R210 to R212). -/
def draws (s : State) : Instr → List Draw
  | .pixel x y c => [⟨x.toNat, y.toNat, x.toNat, y.toNat, col2 s.cfg c⟩]
  | .fill c =>
    if s.width = 0 ∨ s.height = 0 then []
    else
      [⟨0, 0, (s.width.toNat : Int) - 1, (s.height.toNat : Int) - 1,
        pixels s c ((s.width.toNat : Int) * s.height.toNat)⟩]
  | .fillRect x y w h c =>
    let w' := cut x.toNat w.toNat s.width.toNat
    let h' := cut y.toNat h.toNat s.height.toNat
    if w' = 0 ∨ h' = 0 then [] else [⟨x.toNat, y.toNat, x.toNat + w' - 1, y.toNat + h' - 1, pixels s c (w' * h')⟩]
  | .hline x y w c => (rowDraw x.toNat y.toNat w.toNat c s).toList
  | .vline x y h c => (columnDraw x.toNat y.toNat h.toNat c s).toList
  | .bitmap x0 y0 x1 y1 buf =>
    let len := (x1.toNat - x0.toNat) * (y1.toNat - y0.toNat) * (if s.bpp = .bpp16 then 2 else 3)
    if x1.toNat ≤ x0.toNat ∨ y1.toNat ≤ y0.toNat ∨ buf.length < len then []
    else
      [⟨x0.toNat + s.xGap.toNat, y0.toNat + s.yGap.toNat, x1.toNat + s.xGap.toNat - 1, y1.toNat + s.yGap.toNat - 1,
        buf.take len⟩]
  | .rect x y w h c =>
    if w = 0 ∨ h = 0 then []
    else
      [rowDraw x.toNat y.toNat w.toNat c s, rowDraw x.toNat (y.toNat + h.toNat - 1) w.toNat c s,
        columnDraw x.toNat y.toNat h.toNat c s, columnDraw (x.toNat + w.toNat - 1) y.toNat h.toNat c s].filterMap id
  | .circle xm ym r c =>
    if r.toInt < 0 then []
    else (circlePoints xm.toInt ym.toInt r.toInt).map fun q => ⟨q.1, q.2, q.1, q.2, col2 s.cfg c⟩
  | .fillCircle xm ym r c =>
    if r.toInt < 0 then []
    else (circleSpans xm.toInt ym.toInt r.toInt).filterMap fun q => columnDraw q.1 q.2.1 q.2.2 c s
  | _ => []

/-- How many frames a call of `draw` submits when the bus takes them all. -/
def Draw.frames (d : Draw) (s : State) : Nat :=
  if Inside s d.x0 d.y0 d.x1 d.y1 then chunkCount d.p.length + 3
  else if s.cfg.streamAfterDrop = .skip then 0
  else chunkCount d.p.length + 1

/-- The state after a payload's stream of which the bus took `j` frames and refused the next (40_bus_transport.md R121,
R124): the priming frame, or the chunk `j - 1`. The sequencer's counters keep their values (log entry 21). -/
def streamRefused (p : List Byte) (j : Nat) (s : State) : State :=
  match j with
  | 0 =>
    { s with
      trace := s.trace ++ [.cs false, .tx (primingFrame s.cfg s.bus.addrBits), .cs true], csLevel := true
      answers := s.answers.tail, asked := s.asked + 1 }
  | k + 1 =>
    { s with
      trace := s.trace ++ ([.cs false, .tx (primingFrame s.cfg s.bus.addrBits)] ++
        ((chunks p).take (k + 1)).map (fun b => .tx (dataFrame b)) ++ [.cs true])
      csLevel := true, seq := { phase := .idle, off := k * 0x8000, rem := p.length - k * 0x8000 }
      answers := s.answers.drop (k + 2), asked := s.asked + (k + 2) }

/-- The state after a call of `draw` of which the bus took `j` frames and refused the next (43_drawing_ops.md R190): a
refused CASET leaves `win`, a refused RASET clears it, and after neither is anything streamed. -/
def Draw.refused (d : Draw) (j : Nat) (s : State) : State :=
  if Inside s d.x0 d.y0 d.x1 d.y1 then
    match j with
    | 0 => failedCommand s.cfg.opCaset (coord4 s.cfg (coord d.x0) (coord d.x1)) s
    | 1 =>
      { failedCommand s.cfg.opRaset (coord4 s.cfg (coord d.y0) (coord d.y1))
          (sentCommand s.cfg.opCaset (coord4 s.cfg (coord d.x0) (coord d.x1)) s) with
        win := none }
    | k + 2 => streamRefused d.p k (sentWindow d.x0 d.y0 d.x1 d.y1 s)
  else streamRefused d.p j s

/-- The one command frame an operation sends in this state, panel command and parameter bytes, for the operations that
send exactly one (41_panel_wire_commands.md, 42_panel_protocol_ops.md); `none` for the others. -/
def oneFrame (s : State) : Instr → Option (Byte × List Byte)
  | .submitCommand cmd p => if p.length ≤ Config.busMax then some (cmd, p) else none
  | .setRotation i => some (s.cfg.opMadctl, [rotationMadctl s.madctl (rtRead s.rt i)])
  | .setRotationTable i t => some (s.cfg.opMadctl, [rotationMadctl s.madctl (rtRead t i)])
  | .setPixelFormat b => (depthOf b).map fun d => (s.cfg.opColmod, [colmodCode d])
  | .setColorSpace k =>
    (colorSpaceOf s.cfg k).map fun c =>
      (s.cfg.opMadctl, [(s.madctl &&& ~~~s.cfg.madctlBgr) ||| colorSpaceBits s.cfg c])
  | .sendCmd cmd c n => if n = 0 then some (cmd, []) else if n = 1 then some (cmd, [c]) else none
  | .mirror mx my => some (s.cfg.opMadctl, [mirrorMadctl s.cfg s.madctl mx my])
  | .swapXy sw => some (s.cfg.opMadctl, [writeMask s.madctl s.cfg.madctlMv sw])
  | .invertColor v => some (if v then s.cfg.opInvon else s.cfg.opInvoff, [])
  | .dispOn => some (s.cfg.opDispon, [])
  | .dispOff => some (s.cfg.opDispoff, [])
  | .backlightOn => some (s.cfg.opWrdisbv, [0xFF])
  | .backlightOff => some (s.cfg.opWrdisbv, [0x00])
  | .brightness b => some (s.cfg.opWrdisbv, [brightMap s.cfg (min (max b.toInt 0) 100)])
  | .vscrollArea tfa vsa bfa =>
    some (s.cfg.opVscrdef, [hi tfa, lo tfa, hi vsa, lo vsa, hi bfa, lo bfa])
  | .vscrollStart off wrap =>
    let o := if wrap = some true then Config.vscrollWrap off (visible s.toQpc) else off
    some (s.cfg.opVscsad, [hi o, lo o])
  | .madctl m => some (s.cfg.opMadctl, [m])
  | .caset x0 x1 => some (s.cfg.opCaset, coord4 s.cfg x0 x1)
  | .raset y0 y1 => some (s.cfg.opRaset, coord4 s.cfg y0 y1)
  | .colmod code => some (s.cfg.opColmod, [code])
  | .slpin => some (s.cfg.opSlpin, [])
  | .slpout => some (s.cfg.opSlpout, [])
  | .dispon => some (s.cfg.opDispon, [])
  | .dispoff => some (s.cfg.opDispoff, [])
  | .invon => some (s.cfg.opInvon, [])
  | .invoff => some (s.cfg.opInvoff, [])
  | .wrdisbv v => some (s.cfg.opWrdisbv, [v])
  | .vscrdef tfa vsa bfa => some (s.cfg.opVscrdef, [hi tfa, lo tfa, hi vsa, lo vsa, hi bfa, lo bfa])
  | .vscsad off => some (s.cfg.opVscsad, [hi off, lo off])
  | .submitColor _ => none
  | .setWindow _ _ _ _ => none
  | .setGap _ _ => none
  | .width => none
  | .height => none
  | .pixel _ _ _ => none
  | .fill _ => none
  | .fillRect _ _ _ _ _ => none
  | .hline _ _ _ _ => none
  | .vline _ _ _ _ => none
  | .bitmap _ _ _ _ _ => none
  | .rect _ _ _ _ _ => none
  | .circle _ _ _ _ => none
  | .fillCircle _ _ _ _ => none
  | .construct _ _ _ _ _ => none
  | .deinit => none
  | .reset => none
  | .init => none
  | .ramwr _ => none
  | .data _ => none

/-- The wire command rows (41_panel_wire_commands.md R141 to R154, without RAMWR). -/
def wireCommand : Instr → Bool
  | .madctl _ | .caset _ _ | .raset _ _ | .colmod _ | .slpin | .slpout | .dispon | .dispoff | .invon | .invoff
  | .wrdisbv _ | .vscrdef _ _ _ | .vscsad _ => true
  | _ => false

/-! ### Invariants of the spec -/

/-- 10_state.md R40: while ACTIVE the logical size is the table's and `colmod` is the code of `bpp`. -/
abbrev SizeAndFormat (s : State) : Prop :=
  s.life = .active →
    s.width = (rtRead s.rt s.rotation).width ∧ s.height = (rtRead s.rt s.rotation).height ∧
      s.colmod = colmodCode s.bpp

/-- `MirrorOK` (10_state.md R34). -/
abbrev MirrorOk (s : State) : Prop :=
  (s.txMadctl = none ∨ s.txMadctl = some s.madctl) ∧ (s.txColmod = none ∨ s.txColmod = some s.colmod)

/-- Where a trace stands in the chip-select law (40_bus_transport.md R123). -/
inductive Bracket where
  /-- Between brackets. -/
  | outside
  /-- Chip-select is low, nothing sent yet. -/
  | opened
  /-- The bracket holds its one command frame. -/
  | command
  /-- The bracket holds a priming frame and the data frames sent so far. -/
  | color
deriving DecidableEq, Repr

/-- One event under the chip-select law; `none` where the law is broken. -/
def Bracket.next : Bracket → Event → Option Bracket
  | .outside, .cs level => if level then none else some .opened
  | .outside, .tx _ => none
  | .outside, _ => some .outside
  | .opened, .tx t =>
    if t.flags = commandFlags then some .command else if t.flags = primeFlags then some .color else none
  | .opened, _ => none
  | .command, .cs level => if level then some .outside else none
  | .command, _ => none
  | .color, .cs level => if level then some .outside else none
  | .color, .tx t => if t.flags = dataFlags then some .color else none
  | .color, _ => none

/-- A trace under the chip-select law. -/
def Bracket.run : Bracket → List Event → Option Bracket
  | b, [] => some b
  | b, e :: es =>
    match b.next e with
    | some b' => b'.run es
    | none => none

/-- 40_bus_transport.md R123: the trace obeys the chip-select law, chip-select is high exactly while the sequencer is
IDLE, and only a colour transfer can be open between two steps. -/
abbrev ChipSelectLaw (s : State) : Prop :=
  (s.seq.phase = .idle ∧ s.csLevel = true ∧ Bracket.run .outside s.trace = some .outside) ∨
    (s.seq.phase = .chunk ∧ s.csLevel = false ∧ Bracket.run .outside s.trace = some .color)

/-- 10_state.md R22: while ACTIVE the bus is claimed and its handle has the widths the frames need; an open colour
transfer belongs to an ACTIVE object. -/
abbrev BusHeld (s : State) : Prop :=
  (s.busClaimed = true ↔ s.life = .active) ∧
    (s.life = .active → s.bus.cmdBits = Config.cmdPhaseBits ∧ s.bus.addrBits = s.cfg.addrBits) ∧
    (s.seq.phase ≠ .idle → s.life = .active)

/-! ### Who writes what (10_state.md R39) -/

/-- The columns of the access table: `life` stands with `bus.claimed`, `format` for `colmod` and `bpp`, `rotation` with
the logical size, `ghosts` for `tx_madctl` and `tx_colmod`, `resetPin` for the three reset-pin registers. -/
inductive Register where
  | life
  | madctl
  | format
  | colorSpace
  | rotation
  | gaps
  | table
  | window
  | ghosts
  | resetPin
deriving DecidableEq, Repr

/-- The `W` entries of the access table, row by row; the raw command and the two wire rows that may carry the mirror's
bytes have SEND_CMD's row. -/
def writes : Instr → List Register
  | .submitCommand _ _ => [.ghosts]
  | .submitColor _ => []
  | .setRotation _ => [.madctl, .rotation, .gaps, .ghosts]
  | .setRotationTable _ _ => [.madctl, .rotation, .gaps, .table, .ghosts]
  | .setWindow _ _ _ _ => [.window]
  | .setPixelFormat _ => [.format, .ghosts]
  | .setColorSpace _ => [.madctl, .colorSpace, .ghosts]
  | .sendCmd _ _ _ => [.ghosts]
  | .mirror _ _ => [.madctl, .ghosts]
  | .swapXy _ => [.madctl, .ghosts]
  | .setGap _ _ => [.gaps]
  | .invertColor _ => []
  | .dispOn => []
  | .dispOff => []
  | .backlightOn => []
  | .backlightOff => []
  | .brightness _ => []
  | .width => []
  | .height => []
  | .vscrollArea _ _ _ => []
  | .vscrollStart _ _ => []
  | .pixel _ _ _ => [.window]
  | .fill _ => [.window]
  | .fillRect _ _ _ _ _ => [.window]
  | .hline _ _ _ _ => [.window]
  | .vline _ _ _ _ => [.window]
  | .bitmap _ _ _ _ _ => [.window]
  | .rect _ _ _ _ _ => [.window]
  | .circle _ _ _ _ => [.window]
  | .fillCircle _ _ _ _ => [.window]
  | .construct _ _ _ _ _ => [.life, .madctl, .format, .colorSpace, .rotation, .gaps, .table, .window, .ghosts, .resetPin]
  | .deinit => [.life]
  | .reset => [.window, .ghosts, .resetPin]
  | .init => [.ghosts]
  | .madctl _ => [.ghosts]
  | .caset _ _ => []
  | .raset _ _ => []
  | .colmod _ => [.ghosts]
  | .slpin => []
  | .slpout => []
  | .dispon => []
  | .dispoff => []
  | .invon => []
  | .invoff => []
  | .wrdisbv _ => []
  | .vscrdef _ _ _ => []
  | .vscsad _ => []
  | .ramwr _ => []
  | .data _ => []

/-- The operations that may send a MADCTL or COLMOD byte the mirror does not hold (70_reset_and_hazards.md R267): the
raw paths and the two wire rows. -/
def sendsRaw : Instr → Bool
  | .submitCommand _ _ | .sendCmd _ _ _ | .madctl _ | .colmod _ => true
  | _ => false

/-! ### State that no operation reads (10_state.md R25, R34) -/

/-- Two states that agree in everything but the ghosts. -/
abbrev SameButGhosts (s t : State) : Prop :=
  { s with txMadctl := none, txColmod := none } = { t with txMadctl := none, txColmod := none }

/-- Two states that agree in everything but the window. -/
abbrev SameButWindow (s t : State) : Prop := { s with win := none } = { t with win := none }

/-- Two outcomes of one kind: next states related by `R`, or the same fault, or the same refusal. -/
def SameOutcome (R : State → State → Prop) :
    Host.Outcome State Fault Refusal → Host.Outcome State Fault Refusal → Prop
  | .next s, .next t => R s t
  | .fault f, .fault g => f = g
  | .refused r, .refused q => r = q
  | _, _ => False

/-! ### Running several frames -/

/-- Perform instructions one after another while each gives a next state. -/
def performAll : List Instr → State → Host.Outcome State Fault Refusal
  | [], s => .next s
  | i :: rest, s =>
    match exec i s with
    | .next s' => performAll rest s'
    | .fault f => .fault f
    | .refused r => .refused r

end Sys2Proof.Safety
end

