-- ==== Sys2Proof/Certificates/Slice0/Obligations.lean ====
section
/-! DEFINITION. The statements for the provers, from the numbered rules of spec/. Where a rule rests on a decision the
spec marks as its own (92_eei_decisions.md D<n>), the statement's docstring names it. -/

open Sys2Proof Sys2Proof.Machine Sys2Proof.Safety

/-! ### Power-on, steps, encodings -/

/-- 70_reset_and_hazards.md R260: after power-on `life = UNBOUND`, `bus.claimed = 0`, `seq.phase = IDLE`, both ghosts
`none`; no operation other than CONSTRUCT is accepted; the QPC waits for its first request. Decision of the spec:
D49. -/
def Obligations.PowerOnWaitsForConstruct : Prop :=
  State.reset.life = .unbound ∧ State.reset.busClaimed = false ∧ State.reset.seq.phase = .idle ∧
    State.reset.txMadctl = none ∧ State.reset.txColmod = none ∧ step State.reset = .next State.reset ∧
    ∀ i : Instr, (∀ h rst rl k b, i ≠ .construct h rst rl k b) →
      exec i State.reset = .next { State.reset with result := some (.refused .notActive) }

/-- The reset state has every invariant stated below, and its parameters are admissible. The model's choices in it:
`cs_level = 1` before CONSTRUCT, which 10_state.md R41 calls unspecified (log entry 12); the parameters' defaults (log
entries 2 and 3); the integers of RGB and BGR (log entry 10); what an admissible `INIT_SEQ` is (log entry 23). -/
def Obligations.PowerOnHasTheInvariants : Prop :=
  ChipSelectLaw State.reset ∧ SizeAndFormat State.reset ∧ BusHeld State.reset ∧ MirrorOk State.reset ∧
    State.reset.cfg.Ok

/-- A step performs the oldest request of the port, which leaves the port; without a request nothing happens; a selector
outside the table is `Refused(unknown_operation)` with no event and no state change (30_encoding.md R101). That the
port is a list of requests, and that an item that is no request is `Refused` too, with a cause of the model's own, are
the model's choices (log entry 14). Decisions of the spec: D2, D44, D49. -/
def Obligations.StepPerformsTheOldestRequest : Prop :=
  ∀ s : State,
    (s.port = [] → step s = .next s) ∧
      ∀ item rest, s.port = item :: rest →
        (∀ i, decode s.cfg item = .ok i → i.wf s.cfg = true ∧ step s = exec i { s with port := rest }) ∧
          (decode s.cfg item = .error .unknownOperation →
            step s = .next { s with port := rest, result := some (.refused .unknownOperation) }) ∧
          ∀ e, e ≠ .unknownOperation → decode s.cfg item = .error e →
            step s = .next { s with port := rest, result := some (.refused (.malformed e)) }

/-- 30_encoding.md R99: the decoder calls exactly the selectors outside the table unknown operations. Decision of the
spec: D2. -/
def Obligations.OnlyTheTablesSelectorsSelect : Prop :=
  ∀ (P : Params) (op : BitVec 6) (args : List Operand),
    decode P (.request op args) = .error .unknownOperation ↔
      op.toNat ∉ [0x00, 0x01, 0x08, 0x09, 0x0A, 0x0B, 0x0C, 0x0D, 0x0E, 0x0F, 0x10, 0x11, 0x12, 0x13, 0x14, 0x15,
        0x16, 0x17, 0x18, 0x19, 0x1A, 0x20, 0x21, 0x22, 0x23, 0x24, 0x25, 0x28, 0x29, 0x2A, 0x30, 0x31, 0x32, 0x33]

/-- Words of 30_encoding.md R96 and R99 decode to their rows. The numbers are the default parameters (log entry 2). That
a word stands for its instruction with zero operands, and how a word of each length is read, is the model's choice (log
entry 17), as is RAMWR's operand (log entry 15). Decisions of the spec: D2, D5. -/
def Obligations.TableWordsDecode : Prop :=
  decodeTableWord 32 0x02003600 = some (.madctl 0) ∧ decodeTableWord 32 0x02002A00 = some (.caset 0 0) ∧
    decodeTableWord 32 0x02001100 = some .slpout ∧ decodeTableWord 32 0x32002C00 = some (.ramwr 0) ∧
    decodeTableWord 8 0x0E = some (.mirror false false) ∧ decodeTableWord 8 0x20 = some (.pixel 0 0 0) ∧
    decodeTableWord 8 0x28 = some (.rect 0 0 0 0 0) ∧ decodeTableWord 8 0x32 = some .reset ∧
    decodeTableWord 8 0x02 = none ∧ decodeTableWord 32 0x02003601 = none

/-- Decoding an encoded well-formed instruction gives it back, with every operand at every value, for every admissible
choice of the parameters. -/
def Obligations.DecodeEncodeAgree : Prop :=
  ∀ (P : Params) (i : Instr), P.Ok → i.wf P = true → decode P (encode P i) = .ok i

/-- 30_encoding.md R91, R92, R93: the fields of the three frames, the panel command in bits 15..8 of the address phase.
Each wire command row puts on the wire exactly the command frame its encoding is, whether the bus takes it or not.
Decisions of the spec: D5, D7, D21. -/
def Obligations.WireRowsSendTheirEncoding : Prop :=
  (∀ (P : Params) (n : Nat) (c : Byte) (p : List Byte), 16 ≤ n →
    commandFrame P n c p =
        { cmd := some P.opcCmdWrite, addr := some { bits := n, value := c.toNat * 256 }, data := p
          flags := { mlCmd := true, mlAddr := true, quad := false, varCmd := false, varAddr := false
                     varDummy := false } } ∧
      primingFrame P n =
        { cmd := some P.opcColorWrite, addr := some { bits := n, value := P.opRamwr.toNat * 256 }, data := []
          flags := { mlCmd := false, mlAddr := false, quad := true, varCmd := false, varAddr := false
                     varDummy := false } } ∧
      dataFrame p =
        { cmd := none, addr := none, data := p
          flags := { mlCmd := false, mlAddr := false, quad := true, varCmd := true, varAddr := true
                     varDummy := true } }) ∧
    ∀ (s t : State) (i : Instr), Ready s → s.bus.addrBits = s.cfg.addrBits → 16 ≤ s.cfg.addrBits →
      wireCommand i = true → exec i s = .next t →
      ∃ (f : Transaction) (c : Byte) (p : List Byte), encode s.cfg i = .frame f 0 ∧ t.trace = s.trace ++ bracket f ∧
        oneFrame s i = some (c, p) ∧ f.cmd = some s.cfg.opcCmdWrite ∧
        f.addr = some { bits := s.cfg.addrBits, value := c.toNat * 256 } ∧ f.data = p ∧
        f.flags = { mlCmd := true, mlAddr := true, quad := false, varCmd := false, varAddr := false, varDummy := false }

/-- 30_encoding.md R95, 20_memory.md R65: the coordinate block is two coordinates, high byte first, the high bytes
masked to `COORD_BITS - 8` bits; a coordinate below `2^COORD_BITS` arrives unchanged; CASET and RASET carry the
block. -/
def Obligations.CoordinatesAreBigEndianMasked : Prop :=
  ∀ (P : Params) (a b : Half), P.Ok →
    ((coordHiMask P).toNat = 2 ^ (P.coordBits - 8) - 1 ∧
      ∃ ah al bh bl : Byte, coord4 P a b = [ah, al, bh, bl] ∧
        ah.toNat = a.toNat / 256 % 2 ^ (P.coordBits - 8) ∧ al.toNat = a.toNat % 256 ∧
        bh.toNat = b.toNat / 256 % 2 ^ (P.coordBits - 8) ∧ bl.toNat = b.toNat % 256 ∧
        (a.toNat < 2 ^ P.coordBits → ah.toNat * 256 + al.toNat = a.toNat) ∧
        (b.toNat < 2 ^ P.coordBits → bh.toNat * 256 + bl.toNat = b.toNat)) ∧
      ∀ s : State, Ready s → s.cfg = P →
        ∃ t u, exec (.caset a b) s = .next t ∧
          t.trace = s.trace ++ bracket (commandFrame P s.bus.addrBits P.opCaset (coord4 P a b)) ∧
          exec (.raset a b) s = .next u ∧
          u.trace = s.trace ++ bracket (commandFrame P s.bus.addrBits P.opRaset (coord4 P a b))

/-! ### Bus transport -/

/-- 40_bus_transport.md R120: SUBMIT_COMMAND sends one command frame in one bracket; the ghosts follow a one-byte
MADCTL or COLMOD frame that was taken; a refused frame is an I/O error; the two preconditions. Decisions of the spec:
D20, D49. -/
def Obligations.SubmitCommandSendsOneFrame : Prop :=
  ∀ (s : State) (cmd : Byte) (p : List Byte), s.seq.phase = .idle →
    (s.life = .active → p.length ≤ Config.busMax → answerAt s 0 = .ok →
      exec (.submitCommand cmd p) s = .next { sentCommand cmd p s with result := some .done }) ∧
      (∀ st, s.life = .active → p.length ≤ Config.busMax → answerAt s 0 = .fail st →
        exec (.submitCommand cmd p) s = .next { failedCommand cmd p s with result := some (.ioError st) }) ∧
      (s.life = .active → Config.busMax < p.length →
        exec (.submitCommand cmd p) s = .next { s with result := some (.refused .payloadTooLong) }) ∧
      (s.life ≠ .active →
        exec (.submitCommand cmd p) s = .next { s with result := some (.refused .notActive) })

/-- 40_bus_transport.md R122, laws (a) to (e): the chunks are at least one, each at most `BUS_MAX`, all but the last
exactly `BUS_MAX`, the last of a payload that is not empty not empty, and in order they are the payload. -/
def Obligations.ChunksPartitionThePayload : Prop :=
  ∀ p : List Byte,
    (chunks p).length = max 1 ((p.length + 0x7FFF) / 0x8000) ∧ (chunks p).flatten = p ∧
      ((chunks p).map List.length).sum = p.length ∧ (∀ d ∈ chunks p, d.length ≤ 0x8000) ∧
      (∀ k, k + 1 < (chunks p).length → ((chunks p)[k]?).map List.length = some 0x8000) ∧
      ((chunks p).getLast?.map List.length = some (p.length - ((chunks p).length - 1) * 0x8000)) ∧
      (p ≠ [] → ∃ d, (chunks p).getLast? = some d ∧ d ≠ [])

/-- 40_bus_transport.md R121: SUBMIT_COLOR is one bracket with the priming frame and every chunk in order. Decisions of
the spec: D5, D19. -/
def Obligations.SubmitColorStreamsEveryChunk : Prop :=
  ∀ (s : State) (p : List Byte), Ready s → BusOk s (chunkCount p.length + 1) →
    exec (.submitColor p) s =
      .next
        { s with
          trace := s.trace ++ ([.cs false, .tx (primingFrame s.cfg s.bus.addrBits)] ++
            (chunks p).map (fun d => .tx (dataFrame d)) ++ [.cs true])
          csLevel := true, seq := { phase := .idle, off := p.length, rem := 0 }
          answers := s.answers.drop (chunkCount p.length + 1), asked := s.asked + (chunkCount p.length + 1)
          result := some .done }

/-- 40_bus_transport.md R121, R124: at the first frame the bus refuses the bracket is closed, no later frame is
submitted, and the status code is the result. That the sequencer's counters keep their values after the error is the
model's choice (log entry 21). Decision of the spec: D50. -/
def Obligations.SubmitColorStopsAtTheFirstFailure : Prop :=
  ∀ (s : State) (p : List Byte) (st : Nat), Ready s →
    (answerAt s 0 = .fail st →
      exec (.submitColor p) s =
        .next
          { s with
            trace := s.trace ++ [.cs false, .tx (primingFrame s.cfg s.bus.addrBits), .cs true]
            csLevel := true, answers := s.answers.tail, asked := s.asked + 1, result := some (.ioError st) }) ∧
      ∀ k, k < chunkCount p.length → BusOk s (k + 1) → answerAt s (k + 1) = .fail st →
        exec (.submitColor p) s =
          .next
            { s with
              trace := s.trace ++ ([.cs false, .tx (primingFrame s.cfg s.bus.addrBits)] ++
                ((chunks p).take (k + 1)).map (fun d => .tx (dataFrame d)) ++ [.cs true])
              csLevel := true
              seq := { phase := .idle, off := k * 0x8000, rem := p.length - k * 0x8000 }
              answers := s.answers.drop (k + 2), asked := s.asked + (k + 2), result := some (.ioError st) }

/-- RAMWR and DATA frame by frame make SUBMIT_COLOR: the priming frame and the chunks, performed one after another,
leave the state the one operation leaves. That the frames are instructions, and RAMWR's length operand, are the model's
choice (log entry 15). -/
def Obligations.FramesRefineSubmitColor : Prop :=
  ∀ (s : State) (p : List Byte), Ready s → BusOk s (chunkCount p.length + 1) →
    performAll (.ramwr p.length :: (chunks p).map .data) s = exec (.submitColor p) s

/-- 41_panel_wire_commands.md R144: RAMWR opens the bracket of a colour transfer with the priming frame. Its length
operand is the model's (log entry 15). -/
def Obligations.RamwrOpensTheTransfer : Prop :=
  ∀ (s : State) (len : Nat), Ready s →
    (answerAt s 0 = .ok →
      exec (.ramwr len) s =
        .next
          { s with
            trace := s.trace ++ [.cs false, .tx (primingFrame s.cfg s.bus.addrBits)], csLevel := false
            seq := { phase := .chunk, off := 0, rem := len }
            answers := s.answers.tail, asked := s.asked + 1, result := some .done }) ∧
      ∀ st, answerAt s 0 = .fail st →
        exec (.ramwr len) s =
          .next
            { s with
              trace := s.trace ++ bracket (primingFrame s.cfg s.bus.addrBits), csLevel := true
              answers := s.answers.tail, asked := s.asked + 1, result := some (.ioError st) }

/-- 41_panel_wire_commands.md R155: DATA is one trip of the chunk loop; the bracket closes when nothing remains or the
bus refuses. The model's choices: it is a fault outside an open transfer and with a length that is not the next chunk's
(log entry 15), and the sequencer's counters keep their values when the bracket has closed (log entry 21). -/
def Obligations.DataIsOneTripOfTheLoop : Prop :=
  ∀ (s : State) (d : List Byte), s.life = .active →
    (s.seq.phase = .chunk → d.length = min 0x8000 s.seq.rem → d.length < s.seq.rem → answerAt s 0 = .ok →
      exec (.data d) s =
        .next
          { s with
            trace := s.trace ++ [.tx (dataFrame d)]
            seq := { phase := .chunk, off := s.seq.off + d.length, rem := s.seq.rem - d.length }
            answers := s.answers.tail, asked := s.asked + 1, result := some .done }) ∧
      (s.seq.phase = .chunk → d.length = min 0x8000 s.seq.rem → d.length = s.seq.rem → answerAt s 0 = .ok →
        exec (.data d) s =
          .next
            { s with
              trace := s.trace ++ [.tx (dataFrame d), .cs true], csLevel := true
              seq := { phase := .idle, off := s.seq.off + d.length, rem := 0 }
              answers := s.answers.tail, asked := s.asked + 1, result := some .done }) ∧
      (∀ st, s.seq.phase = .chunk → d.length = min 0x8000 s.seq.rem → s.csLevel = false →
        answerAt s 0 = .fail st →
        exec (.data d) s =
          .next
            { s with
              trace := s.trace ++ [.tx (dataFrame d), .cs true], csLevel := true
              seq := { s.seq with phase := .idle }
              answers := s.answers.tail, asked := s.asked + 1, result := some (.ioError st) }) ∧
      (s.seq.phase ≠ .chunk → exec (.data d) s = .fault .dataOutsideBracket) ∧
      (s.seq.phase = .chunk → d.length ≠ min 0x8000 s.seq.rem → exec (.data d) s = .fault .notTheNextChunk)

/-! ### Wire commands -/

/-- 41_panel_wire_commands.md R141 to R154 (without RAMWR): each command row sends its one frame. -/
def Obligations.WireCommandsSendTheirFrame : Prop :=
  ∀ s : State, Ready s → answerAt s 0 = .ok →
    (∀ m, exec (.madctl m) s = .next { sentCommand s.cfg.opMadctl [m] s with result := some .done }) ∧
      (∀ x0 x1, exec (.caset x0 x1) s =
        .next { sentCommand s.cfg.opCaset (coord4 s.cfg x0 x1) s with result := some .done }) ∧
      (∀ y0 y1, exec (.raset y0 y1) s =
        .next { sentCommand s.cfg.opRaset (coord4 s.cfg y0 y1) s with result := some .done }) ∧
      (∀ code, exec (.colmod code) s = .next { sentCommand s.cfg.opColmod [code] s with result := some .done }) ∧
      exec .slpin s = .next { sentCommand s.cfg.opSlpin [] s with result := some .done } ∧
      exec .slpout s = .next { sentCommand s.cfg.opSlpout [] s with result := some .done } ∧
      exec .dispon s = .next { sentCommand s.cfg.opDispon [] s with result := some .done } ∧
      exec .dispoff s = .next { sentCommand s.cfg.opDispoff [] s with result := some .done } ∧
      exec .invon s = .next { sentCommand s.cfg.opInvon [] s with result := some .done } ∧
      exec .invoff s = .next { sentCommand s.cfg.opInvoff [] s with result := some .done } ∧
      (∀ v, exec (.wrdisbv v) s = .next { sentCommand s.cfg.opWrdisbv [v] s with result := some .done }) ∧
      (∀ tfa vsa bfa, exec (.vscrdef tfa vsa bfa) s =
        .next { sentCommand s.cfg.opVscrdef [hi tfa, lo tfa, hi vsa, lo vsa, hi bfa, lo bfa] s with
                result := some .done }) ∧
      (∀ off, exec (.vscsad off) s =
        .next { sentCommand s.cfg.opVscsad [hi off, lo off] s with result := some .done })

/-! ### Panel protocol -/

/-- 42_panel_protocol_ops.md R160: SET_ROTATION sends `(madctl & 0x1F) | e.madctl` and then commits it with the entry's
size and gaps. Decision of the spec: D16. -/
def Obligations.SetRotationSendsThenCommits : Prop :=
  ∀ (s : State) (i : BitVec 2) (e : RotEntry) (m : Byte), Ready s →
    [s.rt.e0, s.rt.e1, s.rt.e2, s.rt.e3][i.toNat]? = some e →
    m = (s.madctl &&& 0x1F) ||| e.madctl →
    (answerAt s 0 = .ok →
      exec (.setRotation i) s =
        .next
          { sentCommand s.cfg.opMadctl [m] s with
            madctl := m, rotation := i, width := e.width, height := e.height
            xGap := e.colstart, yGap := e.rowstart, result := some .done }) ∧
      ∀ st, answerAt s 0 = .fail st →
        exec (.setRotation i) s = .next { failedCommand s.cfg.opMadctl [m] s with result := some (.ioError st) }

/-- 42_panel_protocol_ops.md R161: SET_ROTATION_TABLE replaces the table and selects from the new one; a failed
transmission keeps the old table. Decision of the spec: D45. -/
def Obligations.SetRotationTableReplacesOrKeeps : Prop :=
  ∀ (s : State) (i : BitVec 2) (t : RotTable) (e : RotEntry) (m : Byte), Ready s →
    [t.e0, t.e1, t.e2, t.e3][i.toNat]? = some e →
    m = (s.madctl &&& 0x1F) ||| e.madctl →
    (answerAt s 0 = .ok →
      exec (.setRotationTable i t) s =
        .next
          { sentCommand s.cfg.opMadctl [m] s with
            rt := t, madctl := m, rotation := i, width := e.width, height := e.height
            xGap := e.colstart, yGap := e.rowstart, result := some .done }) ∧
      ∀ st, answerAt s 0 = .fail st →
        exec (.setRotationTable i t) s =
          .next { failedCommand s.cfg.opMadctl [m] s with result := some (.ioError st) }

/-- 42_panel_protocol_ops.md R162: a window inside the panel is sent as CASET then RASET and recorded; any other is
dropped with no event and no state change; a failed CASET leaves `win`, a failed RASET clears it. Decisions of the
spec: D4, D17. -/
def Obligations.SetWindowSendsOrDrops : Prop :=
  ∀ (s : State) (x0 y0 x1 y1 : Half), Ready s →
    (x0.toNat ≤ x1.toNat ∧ x1.toNat < s.width.toNat ∧ y0.toNat ≤ y1.toNat ∧ y1.toNat < s.height.toNat →
      (BusOk s 2 →
        exec (.setWindow x0 y0 x1 y1) s =
          .next
            { sentCommand s.cfg.opRaset (coord4 s.cfg y0 y1) (sentCommand s.cfg.opCaset (coord4 s.cfg x0 x1) s) with
              win := some ⟨x0, y0, x1, y1⟩, result := some .done }) ∧
        (∀ st, answerAt s 0 = .fail st →
          exec (.setWindow x0 y0 x1 y1) s =
            .next { failedCommand s.cfg.opCaset (coord4 s.cfg x0 x1) s with result := some (.ioError st) }) ∧
        ∀ st, answerAt s 0 = .ok → answerAt s 1 = .fail st →
          exec (.setWindow x0 y0 x1 y1) s =
            .next
              { failedCommand s.cfg.opRaset (coord4 s.cfg y0 y1)
                  (sentCommand s.cfg.opCaset (coord4 s.cfg x0 x1) s) with
                win := none, result := some (.ioError st) }) ∧
      (¬ (x0.toNat ≤ x1.toNat ∧ x1.toNat < s.width.toNat ∧ y0.toNat ≤ y1.toNat ∧ y1.toNat < s.height.toNat) →
        exec (.setWindow x0 y0 x1 y1) s = .next { s with result := some .dropped })

/-- 42_panel_protocol_ops.md R163: SET_PIXEL_FORMAT sends the format code and commits it; another depth is a value
error before anything is sent. Decisions of the spec: D16, D35. -/
def Obligations.SetPixelFormatSendsThenCommits : Prop :=
  ∀ s : State, Ready s →
    (∀ b d code, (b, d, code) ∈ [((16 : Int), Depth.bpp16, (0x75 : Byte)), (18, .bpp18, 0x76), (24, .bpp24, 0x77)] →
      (answerAt s 0 = .ok →
        exec (.setPixelFormat b) s =
          .next { sentCommand s.cfg.opColmod [code] s with bpp := d, colmod := code, result := some .done }) ∧
        ∀ st, answerAt s 0 = .fail st →
          exec (.setPixelFormat b) s =
            .next { failedCommand s.cfg.opColmod [code] s with result := some (.ioError st) }) ∧
      ∀ b : Int, b ≠ 16 → b ≠ 18 → b ≠ 24 →
        exec (.setPixelFormat b) s = .next { s with result := some (.valueError .unsupportedBitDepth) }

/-- 42_panel_protocol_ops.md R164: SET_COLOR_SPACE rewrites the BGR bit, sends MADCTL and commits; another integer is a
value error. Which integers stand for RGB and BGR is the model's choice (log entry 10). Decisions of the spec: D12,
D36. -/
def Obligations.SetColorSpaceSendsThenCommits : Prop :=
  ∀ s : State, Ready s → s.cfg.codeRgb ≠ s.cfg.codeBgr →
    (answerAt s 0 = .ok →
      exec (.setColorSpace s.cfg.codeRgb) s =
        .next
          { sentCommand s.cfg.opMadctl [s.madctl &&& ~~~s.cfg.madctlBgr] s with
            madctl := s.madctl &&& ~~~s.cfg.madctlBgr, colorSpace := .rgb, result := some .done }) ∧
      (answerAt s 0 = .ok →
        exec (.setColorSpace s.cfg.codeBgr) s =
          .next
            { sentCommand s.cfg.opMadctl [s.madctl ||| s.cfg.madctlBgr] s with
              madctl := s.madctl ||| s.cfg.madctlBgr, colorSpace := .bgr, result := some .done }) ∧
      ∀ k, k ≠ s.cfg.codeRgb → k ≠ s.cfg.codeBgr →
        exec (.setColorSpace k) s = .next { s with result := some (.valueError .unsupportedColorSpace) }

/-- 42_panel_protocol_ops.md R165: SEND_CMD sends any command with zero or one parameter byte; a longer length is
`Refused(bad_length)`. Decision of the spec: D44. -/
def Obligations.SendCmdSendsZeroOrOneByte : Prop :=
  ∀ (s : State) (cmd c : Byte), Ready s →
    (answerAt s 0 = .ok →
      exec (.sendCmd cmd c 0) s = .next { sentCommand cmd [] s with result := some .done } ∧
        exec (.sendCmd cmd c 1) s = .next { sentCommand cmd [c] s with result := some .done }) ∧
      (∀ st, answerAt s 0 = .fail st →
        exec (.sendCmd cmd c 0) s = .next { failedCommand cmd [] s with result := some (.ioError st) } ∧
          exec (.sendCmd cmd c 1) s = .next { failedCommand cmd [c] s with result := some (.ioError st) }) ∧
      ∀ n, 1 < n → exec (.sendCmd cmd c n) s = .next { s with result := some (.refused .badLength) }

/-- 42_panel_protocol_ops.md R166, R167: MIRROR and SWAP_XY write their bits of MADCTL, set or cleared, send the byte
and commit it; the size is not exchanged. Decisions of the spec: D37, D38. -/
def Obligations.MirrorAndSwapWriteTheirBits : Prop :=
  ∀ s : State, Ready s → answerAt s 0 = .ok →
    (∀ (mx my : Bool) (m : Byte),
      m = (s.madctl &&& ~~~(s.cfg.madctlMx ||| s.cfg.madctlMy)) ||| (if mx then s.cfg.madctlMx else 0) |||
          (if my then s.cfg.madctlMy else 0) →
      exec (.mirror mx my) s =
        .next { sentCommand s.cfg.opMadctl [m] s with madctl := m, result := some .done }) ∧
      ∀ (sw : Bool) (m : Byte),
        m = (s.madctl &&& ~~~s.cfg.madctlMv) ||| (if sw then s.cfg.madctlMv else 0) →
        exec (.swapXy sw) s =
          .next { sentCommand s.cfg.opMadctl [m] s with madctl := m, result := some .done }

/-- 42_panel_protocol_ops.md R168, R175, R176: SET_GAP stores the gaps and sends nothing; WIDTH and HEIGHT return the
logical size and change nothing; without an active object each is `Refused(not_active)` (60_exceptions.md R240).
Decisions of the spec: D49, D53, D57. -/
def Obligations.GapAndSizeQueriesSendNothing : Prop :=
  ∀ s : State, s.seq.phase = .idle →
    (s.life = .active →
      (∀ gx gy, exec (.setGap gx gy) s = .next { s with xGap := gx, yGap := gy, result := some .done }) ∧
        exec .width s = .next { s with result := some (.value s.width) } ∧
        exec .height s = .next { s with result := some (.value s.height) }) ∧
      (s.life ≠ .active →
        (∀ gx gy, exec (.setGap gx gy) s = .next { s with result := some (.refused .notActive) }) ∧
          exec .width s = .next { s with result := some (.refused .notActive) } ∧
          exec .height s = .next { s with result := some (.refused .notActive) })

/-- 42_panel_protocol_ops.md R169 to R173: the display commands. Decisions of the spec: D39, D40. -/
def Obligations.DisplayCommandsSendTheirFrame : Prop :=
  ∀ s : State, Ready s → answerAt s 0 = .ok →
    exec (.invertColor true) s = .next { sentCommand s.cfg.opInvon [] s with result := some .done } ∧
      exec (.invertColor false) s = .next { sentCommand s.cfg.opInvoff [] s with result := some .done } ∧
      exec .dispOn s = .next { sentCommand s.cfg.opDispon [] s with result := some .done } ∧
      exec .dispOff s = .next { sentCommand s.cfg.opDispoff [] s with result := some .done } ∧
      exec .backlightOn s = .next { sentCommand s.cfg.opWrdisbv [0xFF] s with result := some .done } ∧
      exec .backlightOff s = .next { sentCommand s.cfg.opWrdisbv [0x00] s with result := some .done }

/-- 42_panel_protocol_ops.md R174: BRIGHTNESS clamps to 0..100 and sends `BRIGHT_MAP` of it: 0x00 at and below 0, 0xFF
at and above 100 under every map, the parameter's entry between, which is `floor(255*c/100)` under the default map (log
entry 8). Decision of the spec: D41. -/
def Obligations.BrightnessClampsThenMaps : Prop :=
  ∀ (s : State) (b : I32), Ready s → answerAt s 0 = .ok →
    ∃ v : Byte,
      exec (.brightness b) s = .next { sentCommand s.cfg.opWrdisbv [v] s with result := some .done } ∧
        (b.toInt ≤ 0 → v = 0x00) ∧ (100 ≤ b.toInt → v = 0xFF) ∧
        (∀ k : Fin 99, b.toInt = (k.val : Int) + 1 → v = s.cfg.brightMap[k.val]) ∧
        (s.cfg.brightMap = Params.standard.brightMap → 0 ≤ b.toInt → b.toInt ≤ 100 →
          (v.toNat : Int) = 255 * b.toInt / 100)

/-- 42_panel_protocol_ops.md R177, R178: the scroll commands send their values high byte first; only with the flag 1 is
the offset sent the open function of the offset and the state that operations may read, window and ghosts excluded (log
entry 6). Decisions of the spec: D42, D43. -/
def Obligations.ScrollCommandsSendTheirFrame : Prop :=
  ∀ s : State, Ready s → answerAt s 0 = .ok →
    (∀ tfa vsa bfa, exec (.vscrollArea tfa vsa bfa) s =
      .next { sentCommand s.cfg.opVscrdef [hi tfa, lo tfa, hi vsa, lo vsa, hi bfa, lo bfa] s with
              result := some .done }) ∧
      (∀ off wrap, wrap ≠ some true → exec (.vscrollStart off wrap) s =
        .next { sentCommand s.cfg.opVscsad [hi off, lo off] s with result := some .done }) ∧
      ∀ off o, o = Config.vscrollWrap off (visible s.toQpc) → exec (.vscrollStart off (some true)) s =
        .next { sentCommand s.cfg.opVscsad [hi o, lo o] s with result := some .done }

/-- 42_panel_protocol_ops.md R179, 40_bus_transport.md R124: an operation of one command frame whose frame the bus
refuses closes its bracket, reports the status code, and commits nothing: mirror, table, size and ghosts are as before.
Decisions of the spec: D16, D50. -/
def Obligations.FailedFrameCommitsNothing : Prop :=
  ∀ (s : State) (i : Instr) (c : Byte) (p : List Byte) (st : Nat), Ready s → oneFrame s i = some (c, p) →
    answerAt s 0 = .fail st → exec i s = .next { failedCommand c p s with result := some (.ioError st) }

/-! ### Drawing -/

/-- 43_drawing_ops.md R190, R191: PIXEL sets a one-pixel window and streams the two colour bytes, in the order that
`COLOR_ORDER` says (20_memory.md R66); off the panel it is dropped, and `P_STREAM_AFTER_DROP` (left open: log entry 4)
says whether the bytes still go out. Decisions of the spec: D18, D23. -/
def Obligations.PixelDrawsItsWindow : Prop :=
  ∀ (s : State) (x y c : Half) (q : List Byte), Ready s →
    q = (if s.cfg.colorOrder = .hiFirst then [BitVec.ofNat 8 (c.toNat / 256), BitVec.ofNat 8 (c.toNat % 256)]
         else [BitVec.ofNat 8 (c.toNat % 256), BitVec.ofNat 8 (c.toNat / 256)]) →
    col2 s.cfg c = q ∧
      (x.toNat < s.width.toNat → y.toNat < s.height.toNat → BusOk s 4 →
        exec (.pixel x y c) s =
          .next
            { streamed q
                (sentCommand s.cfg.opRaset (coord4 s.cfg y y) (sentCommand s.cfg.opCaset (coord4 s.cfg x x) s)) with
              win := some ⟨x, y, x, y⟩, result := some .done }) ∧
      (¬ (x.toNat < s.width.toNat ∧ y.toNat < s.height.toNat) → s.cfg.streamAfterDrop = .skip →
        exec (.pixel x y c) s = .next { s with result := some .dropped }) ∧
      (¬ (x.toNat < s.width.toNat ∧ y.toNat < s.height.toNat) → s.cfg.streamAfterDrop = .send → BusOk s 2 →
        exec (.pixel x y c) s = .next { streamed q s with result := some .dropped })

/-- 43_drawing_ops.md R192: FILL sets the full-panel window and streams width times height colours in one bracket; a
panel of no pixels is dropped. Decision of the spec: D29. -/
def Obligations.FillStreamsTheWholePanel : Prop :=
  ∀ (s : State) (c : Half) (p : List Byte), Ready s →
    p = (List.replicate (s.width.toNat * s.height.toNat) (col2 s.cfg c)).flatten →
    (0 < s.width.toNat → 0 < s.height.toNat → BusOk s (chunkCount p.length + 3) →
      exec (.fill c) s =
        .next
          { streamed p
              (sentCommand s.cfg.opRaset (coord4 s.cfg 0 (s.height - 1))
                (sentCommand s.cfg.opCaset (coord4 s.cfg 0 (s.width - 1)) s)) with
            win := some ⟨0, 0, s.width - 1, s.height - 1⟩, result := some .done }) ∧
      (s.width = 0 ∨ s.height = 0 → exec (.fill c) s = .next { s with result := some .dropped })

/-- 43_drawing_ops.md R193, R197: FILL_RECT clips both lengths at the far edges, sets the clipped window and streams
its pixels; an empty one is dropped with no event. Decisions of the spec: D27, D28. -/
def Obligations.FillRectDrawsTheClippedRectangle : Prop :=
  ∀ (s : State) (x y w h c : Half) (w' h' : Nat) (p : List Byte), Ready s →
    w' = min w.toNat (s.width.toNat - x.toNat) → h' = min h.toNat (s.height.toNat - y.toNat) →
    p = (List.replicate (w' * h') (col2 s.cfg c)).flatten →
    (0 < w' → 0 < h' → BusOk s (chunkCount p.length + 3) →
      exec (.fillRect x y w h c) s =
        .next
          { streamed p (sentWindow x.toNat y.toNat (x.toNat + w' - 1 : Int) (y.toNat + h' - 1 : Int) s) with
            result := some .done }) ∧
      (w' = 0 ∨ h' = 0 → exec (.fillRect x y w h c) s = .next { s with result := some .dropped })

/-- 43_drawing_ops.md R194, R197: HLINE clips its length at the far edge and draws one row; length 0 is dropped with no
event; a row off the panel is dropped at the window. Decisions of the spec: D18, D27, D28. -/
def Obligations.HlineDrawsTheClippedRow : Prop :=
  ∀ (s : State) (x y w c : Half) (w' : Nat) (p : List Byte), Ready s →
    w' = min w.toNat (s.width.toNat - x.toNat) → p = (List.replicate w' (col2 s.cfg c)).flatten →
    (0 < w' → y.toNat < s.height.toNat → BusOk s (chunkCount p.length + 3) →
      exec (.hline x y w c) s =
        .next
          { streamed p (sentWindow x.toNat y.toNat (x.toNat + w' - 1 : Int) y.toNat s) with result := some .done }) ∧
      (0 < w' → s.height.toNat ≤ y.toNat → s.cfg.streamAfterDrop = .skip →
        exec (.hline x y w c) s = .next { s with result := some .dropped }) ∧
      (0 < w' → s.height.toNat ≤ y.toNat → s.cfg.streamAfterDrop = .send → BusOk s (chunkCount p.length + 1) →
        exec (.hline x y w c) s = .next { streamed p s with result := some .dropped }) ∧
      (w' = 0 → exec (.hline x y w c) s = .next { s with result := some .dropped })

/-- 43_drawing_ops.md R195, R197: VLINE clips its length at the far edge and draws one column; length 0 is dropped with
no event; a column off the panel is dropped at the window. Decisions of the spec: D18, D28. -/
def Obligations.VlineDrawsTheClippedColumn : Prop :=
  ∀ (s : State) (x y h c : Half) (h' : Nat) (p : List Byte), Ready s →
    h' = min h.toNat (s.height.toNat - y.toNat) → p = (List.replicate h' (col2 s.cfg c)).flatten →
    (0 < h' → x.toNat < s.width.toNat → BusOk s (chunkCount p.length + 3) →
      exec (.vline x y h c) s =
        .next
          { streamed p (sentWindow x.toNat y.toNat x.toNat (y.toNat + h' - 1 : Int) s) with result := some .done }) ∧
      (0 < h' → s.width.toNat ≤ x.toNat → s.cfg.streamAfterDrop = .skip →
        exec (.vline x y h c) s = .next { s with result := some .dropped }) ∧
      (0 < h' → s.width.toNat ≤ x.toNat → s.cfg.streamAfterDrop = .send → BusOk s (chunkCount p.length + 1) →
        exec (.vline x y h c) s = .next { streamed p s with result := some .dropped }) ∧
      (h' = 0 → exec (.vline x y h c) s = .next { s with result := some .dropped })

/-- 43_drawing_ops.md R196, 20_memory.md R72: BITMAP addresses (x0+gx, y0+gy, x1+gx-1, y1+gy-1) and streams the first
area times `Bpp` bytes of the buffer verbatim; an empty rectangle is dropped, a short buffer `Refused(short_buffer)`.
Decisions of the spec: D18, D25, D30, D31. -/
def Obligations.BitmapStreamsTheBufferAtTheGaps : Prop :=
  ∀ (s : State) (x0 y0 x1 y1 : Half) (buf : List Byte) (L : Nat), Ready s →
    L = (x1.toNat - x0.toNat) * (y1.toNat - y0.toNat) * (if s.bpp = .bpp16 then 2 else 3) →
    (x0.toNat < x1.toNat → y0.toNat < y1.toNat → L ≤ buf.length →
      (x1.toNat + s.xGap.toNat ≤ s.width.toNat → y1.toNat + s.yGap.toNat ≤ s.height.toNat →
        BusOk s (chunkCount L + 3) →
        exec (.bitmap x0 y0 x1 y1 buf) s =
          .next
            { streamed (buf.take L)
                (sentCommand s.cfg.opRaset (coord4 s.cfg (y0 + s.yGap) (y1 + s.yGap - 1))
                  (sentCommand s.cfg.opCaset (coord4 s.cfg (x0 + s.xGap) (x1 + s.xGap - 1)) s)) with
              win := some ⟨x0 + s.xGap, y0 + s.yGap, x1 + s.xGap - 1, y1 + s.yGap - 1⟩
              result := some .done }) ∧
        (¬ (x1.toNat + s.xGap.toNat ≤ s.width.toNat ∧ y1.toNat + s.yGap.toNat ≤ s.height.toNat) →
          (s.cfg.streamAfterDrop = .skip →
            exec (.bitmap x0 y0 x1 y1 buf) s = .next { s with result := some .dropped }) ∧
            (s.cfg.streamAfterDrop = .send → BusOk s (chunkCount L + 1) →
              exec (.bitmap x0 y0 x1 y1 buf) s = .next { streamed (buf.take L) s with result := some .dropped }))) ∧
      (x0.toNat < x1.toNat → y0.toNat < y1.toNat → buf.length < L →
        exec (.bitmap x0 y0 x1 y1 buf) s = .next { s with result := some (.refused .shortBuffer) }) ∧
      (x1.toNat ≤ x0.toNat ∨ y1.toNat ≤ y0.toNat →
        exec (.bitmap x0 y0 x1 y1 buf) s = .next { s with result := some .dropped })

/-- 43_drawing_ops.md R190, 44_raster_ops.md (preamble), 60_exceptions.md R243, 70_reset_and_hazards.md R272: a drawing
operation ends at the first frame the bus refuses, in whichever of its calls of `draw` that is: the calls before it stay
drawn, a refused CASET or RASET is followed by no colours, and no later call is made. Then the same for a PIXEL whose
priming frame or data frame is refused, written out. That the sequencer's counters keep their values after the error is
the model's choice (log entry 21). Decisions of the spec: D18,
D32, D33, D34. -/
def Obligations.FailedDrawingStopsAtTheRefusedFrame : Prop :=
  (∀ (s : State) (i : Instr) (before after : List Draw) (d : Draw) (t : State) (n j st : Nat), Ready s →
    draws s i = before ++ d :: after →
    t = before.foldl (fun u e => (drawn e.x0 e.y0 e.x1 e.y1 e.p u).1) s →
    n = (before.map fun e => e.frames s).sum → j < d.frames s → BusOk s (n + j) → answerAt s (n + j) = .fail st →
    exec i s = .next { d.refused j t with result := some (.ioError st) }) ∧
    ∀ (s : State) (x y c : Half) (st : Nat), Ready s → x.toNat < s.width.toNat → y.toNat < s.height.toNat →
      (BusOk s 2 → answerAt s 2 = .fail st →
        exec (.pixel x y c) s =
          .next
            { sentWindow x.toNat y.toNat x.toNat y.toNat s with
              trace := (sentWindow x.toNat y.toNat x.toNat y.toNat s).trace ++
                [.cs false, .tx (primingFrame s.cfg s.bus.addrBits), .cs true]
              answers := s.answers.drop 3, asked := s.asked + 3, result := some (.ioError st) }) ∧
        (BusOk s 3 → answerAt s 3 = .fail st →
          exec (.pixel x y c) s =
            .next
              { sentWindow x.toNat y.toNat x.toNat y.toNat s with
                trace := (sentWindow x.toNat y.toNat x.toNat y.toNat s).trace ++
                  [.cs false, .tx (primingFrame s.cfg s.bus.addrBits), .tx (dataFrame (col2 s.cfg c)), .cs true]
                seq := { phase := .idle, off := 0, rem := 2 }
                answers := s.answers.drop 4, asked := s.asked + 4, result := some (.ioError st) })

/-! ### Raster -/

/-- 44_raster_ops.md R210: RECT is its four lines in order, and `Done`; one of no pixels is dropped with no event. What
a row is, for any integers (43_drawing_ops.md R194, 30_encoding.md R105): none at or beyond the right edge; else its
window is cut at that edge and sent exactly when `0 ≤ a` and `0 ≤ b < height`; otherwise dropped, and
`P_STREAM_AFTER_DROP` decides about the colours. The bound on the answers is enough for any four lines. Decisions of
the spec: D4, D18, D28, D32. -/
def Obligations.RectIsItsFourLines : Prop :=
  ∀ (s : State) (x y w h c : Half), Ready s →
    (0 < w.toNat → 0 < h.toNat → BusOk s 28 →
      exec (.rect x y w h c) s =
        .next
          { (vlineDrawn (x.toNat + w.toNat - 1 : Int) y.toNat h.toNat c
              (vlineDrawn x.toNat y.toNat h.toNat c
                (hlineDrawn x.toNat (y.toNat + h.toNat - 1 : Int) w.toNat c
                  (hlineDrawn x.toNat y.toNat w.toNat c s).1).1).1).1 with
            result := some .done }) ∧
      (w = 0 ∨ h = 0 → exec (.rect x y w h c) s = .next { s with result := some .dropped }) ∧
      ∀ (t : State) (a b n W : Int) (p : List Byte), 0 < n → W = t.width.toNat →
        p = (List.replicate (min n (W - a)).toNat (col2 t.cfg c)).flatten →
        (W ≤ a → hlineDrawn a b n c t = (t, .dropped)) ∧
          (0 ≤ a → a < W → 0 ≤ b → b < t.height.toNat →
            hlineDrawn a b n c t = (streamed p (sentWindow a b (min (a + n) W - 1) b t), .done)) ∧
          (a < W → (a < 0 ∨ b < 0 ∨ (t.height.toNat : Int) ≤ b) →
            hlineDrawn a b n c t = (if t.cfg.streamAfterDrop = .skip then t else streamed p t, .dropped))

/-- 44_raster_ops.md R211: CIRCLE draws its points one after another as PIXELs, and is `Done`; a negative radius draws
nothing. In integers (42_panel_protocol_ops.md R162, 30_encoding.md R105): a point is sent exactly when `0 ≤ x < width`
and `0 ≤ y < height`; any other is dropped, and `P_STREAM_AFTER_DROP` decides about its colours. Decisions of the spec:
D4, D18, D33. -/
def Obligations.CircleDrawsItsPoints : Prop :=
  ∀ (s : State) (xm ym r : I32) (c : Half), Ready s →
    (0 ≤ r.toInt → BusOk s (4 * (circlePoints xm.toInt ym.toInt r.toInt).length) →
      exec (.circle xm ym r c) s =
        .next
          { (circlePoints xm.toInt ym.toInt r.toInt).foldl
              (fun t q =>
                if 0 ≤ q.1 ∧ q.1 < (t.width.toNat : Int) ∧ 0 ≤ q.2 ∧ q.2 < (t.height.toNat : Int) then
                  streamed (col2 s.cfg c) (sentWindow q.1 q.2 q.1 q.2 t)
                else if t.cfg.streamAfterDrop = .skip then t
                else streamed (col2 s.cfg c) t)
              s with
            result := some .done }) ∧
      (r.toInt < 0 → exec (.circle xm ym r c) s = .next { s with result := some .dropped })

/-- 44_raster_ops.md R212: FILL_CIRCLE draws its columns one after another as VLINEs, and is `Done`; a negative radius
draws nothing. What a column is, for any integers (43_drawing_ops.md R195, 30_encoding.md R105): none at or beyond the
bottom edge; else its window is cut at that edge and sent exactly when `0 ≤ a < width` and `0 ≤ b`, never shortened at
the top; otherwise dropped, and `P_STREAM_AFTER_DROP` decides about the colours. The answers assumed are as many as the
columns, cut at the bottom edge, can ask for. Decisions of the spec: D4, D18, D28, D34. -/
def Obligations.FillCircleDrawsItsColumns : Prop :=
  ∀ (s : State) (xm ym r : I32) (c : Half), Ready s →
    (0 ≤ r.toInt →
      BusOk s ((circleSpans xm.toInt ym.toInt r.toInt).map fun q =>
        drawAsks (pixels s c (min q.2.2 (s.height.toNat - q.2.1)))).sum →
      exec (.fillCircle xm ym r c) s =
        .next
          { (circleSpans xm.toInt ym.toInt r.toInt).foldl (fun t q => (vlineDrawn q.1 q.2.1 q.2.2 c t).1) s with
            result := some .done }) ∧
      (r.toInt < 0 → exec (.fillCircle xm ym r c) s = .next { s with result := some .dropped }) ∧
      ∀ (t : State) (a b n H : Int) (p : List Byte), 0 < n → H = t.height.toNat →
        p = (List.replicate (min n (H - b)).toNat (col2 t.cfg c)).flatten →
        (H ≤ b → vlineDrawn a b n c t = (t, .dropped)) ∧
          (0 ≤ a → a < t.width.toNat → 0 ≤ b → b < H →
            vlineDrawn a b n c t = (streamed p (sentWindow a b a (min (b + n) H - 1) t), .done)) ∧
          (b < H → (b < 0 ∨ a < 0 ∨ (t.width.toNat : Int) ≤ a) →
            vlineDrawn a b n c t = (if t.cfg.streamAfterDrop = .skip then t else streamed p t, .dropped))

/-- 44_raster_ops.md R213: the loop ends by its own test, whatever trips are still allowed, and every step it gives
lies in the octant `0 ≤ x ≤ y ≤ r`. Decision of the spec: D33. -/
def Obligations.CircleLoopEndsByItsTest : Prop :=
  ∀ r : Int, 0 ≤ r →
    (∀ extra, circleLoop (r.toNat + 1 + extra) 0 r (1 - r) = circleSteps r) ∧
      ∀ q ∈ circleSteps r, 0 ≤ q.1 ∧ q.1 ≤ q.2 ∧ q.2 ≤ r

/-- 44_raster_ops.md R213: the steps the rule itself lists. Decision of the spec: D33. -/
def Obligations.CircleStepsOfTheRule : Prop :=
  circleSteps 0 = [(0, 0)] ∧ circleSteps 1 = [(0, 1)] ∧ circleSteps 2 = [(0, 2), (1, 2)] ∧
    circleSteps 5 = [(0, 5), (1, 5), (2, 5), (3, 4)]

/-- 44_raster_ops.md R211, R212: the pixels of CIRCLE are the eight images of each step about the centre, so the set is
8-way symmetric, and the columns of FILL_CIRCLE are four for each step. Decisions of the spec: D33, D34. -/
def Obligations.CirclePointsAreSymmetric : Prop :=
  ∀ (xm ym r : Int),
    (∀ q : Int × Int, q ∈ circlePoints xm ym r ↔ ∃ x y, (x, y) ∈ circleSteps r ∧
      (q = (xm + x, ym + y) ∨ q = (xm - x, ym + y) ∨ q = (xm + x, ym - y) ∨ q = (xm - x, ym - y) ∨
        q = (xm + y, ym + x) ∨ q = (xm - y, ym + x) ∨ q = (xm + y, ym - x) ∨ q = (xm - y, ym - x))) ∧
      (∀ q : Int × Int, q ∈ circlePoints xm ym r →
        (2 * xm - q.1, q.2) ∈ circlePoints xm ym r ∧ (q.1, 2 * ym - q.2) ∈ circlePoints xm ym r ∧
          (xm + (q.2 - ym), ym + (q.1 - xm)) ∈ circlePoints xm ym r) ∧
      ∀ col : Int × Int × Int, col ∈ circleSpans xm ym r ↔ ∃ x y, (x, y) ∈ circleSteps r ∧
        (col = (xm + x, ym - y, 2 * y + 1) ∨ col = (xm - x, ym - y, 2 * y + 1) ∨
          col = (xm + y, ym - x, 2 * x + 1) ∨ col = (xm - y, ym - x, 2 * x + 1))

/-! ### Lifecycle -/

/-- 45_lifecycle_ops.md R220, R221: a supported CONSTRUCT claims the bus, fills the table (the vendor's for 240 by 536
or its transpose, else with a warning the generic one, in which rotations 1 and 3 swap), sends MADCTL for rotation 0
and gives every register the value of 10_state.md R41. The model's choices: the integers of RGB and BGR (log entry 10),
and `rst_level` without a reset pin, which R41 calls unspecified and R220's pseudocode writes (log entry 24). Decisions
of the spec: D10, D11, D13, D46. -/
def Obligations.ConstructGivesEveryFieldItsValue : Prop :=
  ∀ (s : State) (h : BusHandle) (rst : Option Nat) (rl : Bool) (k b : Int) (cspace : ColorSpace) (d : Depth)
    (special : Bool) (table : RotTable) (m : Byte),
    s.life = .unbound → s.seq.phase = .idle → s.cfg.codeRgb ≠ s.cfg.codeBgr →
    (k, cspace) ∈ [(s.cfg.codeRgb, ColorSpace.rgb), (s.cfg.codeBgr, .bgr)] →
    (b, d) ∈ [((16 : Int), Depth.bpp16), (18, .bpp18), (24, .bpp24)] → BusOk s 2 →
    special = decide ((s.cfg.nativeW, s.cfg.nativeH) ∈ [((240 : Half), (536 : Half)), (536, 240)]) →
    table =
      (if special then s.cfg.vendorRotTable
        else
          { e0 := ⟨s.cfg.genericRotMadctl.e0, s.cfg.nativeW, s.cfg.nativeH, 0, 0⟩
            e1 := ⟨s.cfg.genericRotMadctl.e1, s.cfg.nativeH, s.cfg.nativeW, 0, 0⟩
            e2 := ⟨s.cfg.genericRotMadctl.e2, s.cfg.nativeW, s.cfg.nativeH, 0, 0⟩
            e3 := ⟨s.cfg.genericRotMadctl.e3, s.cfg.nativeH, s.cfg.nativeW, 0, 0⟩ }) →
    m = ((if cspace = .bgr then s.cfg.madctlBgr else 0) &&& 0x1F) ||| table.e0.madctl →
    exec (.construct h rst rl k b) s =
      .next
        { s with
          life := .active, bus := h, busClaimed := true, rt := table, madctl := m, colmod := colmodCode d
          win := none, rotation := 0, xGap := table.e0.colstart, yGap := table.e0.rowstart
          width := table.e0.width, height := table.e0.height, colorSpace := cspace, bpp := d
          txMadctl := some m, txColmod := if s.cfg.opMadctl = s.cfg.opColmod then some m else none
          csLevel := true, rstPresent := rst.isSome, rstActive := rl, rstLevel := !rl
          trace := s.trace ++ [.claim] ++ (if special then [] else [.warn .unknownGeometry]) ++
            bracket (commandFrame s.cfg h.addrBits s.cfg.opMadctl [m])
          answers := s.answers.drop 2, asked := s.asked + 2, result := some .done }

/-- 45_lifecycle_ops.md R220: what CONSTRUCT reports when it does not create the object, colour space before bit depth
(60_exceptions.md R242), and that it leaves every register as it was (10_state.md R41). That the registers it had
already written are put back is read from R41 (log entry 13). Decisions of the spec: D46, D49, D52. -/
def Obligations.FailedConstructCreatesNothing : Prop :=
  ∀ (s : State) (h : BusHandle) (rst : Option Nat) (rl : Bool) (k b : Int), s.seq.phase = .idle →
    (s.life ≠ .unbound →
      exec (.construct h rst rl k b) s = .next { s with result := some (.refused .alreadyConstructed) }) ∧
      (s.life = .unbound → k ≠ s.cfg.codeRgb → k ≠ s.cfg.codeBgr →
        exec (.construct h rst rl k b) s = .next { s with result := some (.valueError .unsupportedColorSpace) }) ∧
      (s.life = .unbound → (k = s.cfg.codeRgb ∨ k = s.cfg.codeBgr) → b ≠ 16 → b ≠ 18 → b ≠ 24 →
        exec (.construct h rst rl k b) s = .next { s with result := some (.valueError .unsupportedBitDepth) }) ∧
      (∀ st, s.life = .unbound → (k = s.cfg.codeRgb ∨ k = s.cfg.codeBgr) → (b = 16 ∨ b = 18 ∨ b = 24) →
        answerAt s 0 = .fail st →
        exec (.construct h rst rl k b) s =
          .next
            { s with
              trace := s.trace ++ [.claim], answers := s.answers.tail, asked := s.asked + 1
              result := some (.ioError st) }) ∧
      ∀ (st : Nat) (cspace : ColorSpace) (special : Bool) (table : RotTable) (m : Byte), s.life = .unbound →
        s.cfg.codeRgb ≠ s.cfg.codeBgr → (k, cspace) ∈ [(s.cfg.codeRgb, ColorSpace.rgb), (s.cfg.codeBgr, .bgr)] →
        (b = 16 ∨ b = 18 ∨ b = 24) →
        special = decide ((s.cfg.nativeW, s.cfg.nativeH) ∈ [((240 : Half), (536 : Half)), (536, 240)]) →
        table =
          (if special then s.cfg.vendorRotTable
            else
              { e0 := ⟨s.cfg.genericRotMadctl.e0, s.cfg.nativeW, s.cfg.nativeH, 0, 0⟩
                e1 := ⟨s.cfg.genericRotMadctl.e1, s.cfg.nativeH, s.cfg.nativeW, 0, 0⟩
                e2 := ⟨s.cfg.genericRotMadctl.e2, s.cfg.nativeW, s.cfg.nativeH, 0, 0⟩
                e3 := ⟨s.cfg.genericRotMadctl.e3, s.cfg.nativeH, s.cfg.nativeW, 0, 0⟩ }) →
        m = ((if cspace = .bgr then s.cfg.madctlBgr else 0) &&& 0x1F) ||| table.e0.madctl →
        answerAt s 0 = .ok → answerAt s 1 = .fail st →
        exec (.construct h rst rl k b) s =
          .next
            { s with
              busClaimed := false
              trace := s.trace ++ [.claim] ++ (if special then [] else [.warn .unknownGeometry]) ++
                bracket (commandFrame s.cfg h.addrBits s.cfg.opMadctl [m]) ++ [.release]
              answers := s.answers.drop 2, asked := s.asked + 2, result := some (.ioError st) }

/-- 45_lifecycle_ops.md R222: DEINIT gives the bus back once; a second one is a no-op; without an object it is
`Refused(not_active)`. Decision of the spec: D49. -/
def Obligations.DeinitReleasesOnce : Prop :=
  ∀ s : State, s.seq.phase = .idle →
    (s.life = .active →
      exec .deinit s =
        .next { s with trace := s.trace ++ [.release], busClaimed := false, life := .released, result := some .done }) ∧
      (s.life = .released → exec .deinit s = .next { s with result := some .done }) ∧
      (s.life = .unbound → exec .deinit s = .next { s with result := some (.refused .notActive) })

/-- 45_lifecycle_ops.md R223: RESET pulses the reset pin, with its two waits, and forgets the window and the ghosts;
the mirror is not changed. Without a pin and `RESET_NO_PIN = noop` there is no event. The value `swreset` "is left
without a rule and a model that takes it must supply one": the model supplies a free list of steps (log entry 9), of
which the empty list is the pseudocode's `skip` and one frame with a wait is a software-reset command. Decision of the
spec: D47. -/
def Obligations.ResetPulsesThePin : Prop :=
  ∀ s : State, Ready s →
    (s.rstPresent = true →
      exec .reset s =
        .next
          { s with
            trace := s.trace ++ [.rst s.rstActive, .delay s.cfg.resetAssertUs, .rst (!s.rstActive),
              .delay s.cfg.resetReleaseUs]
            rstLevel := !s.rstActive, win := none, txMadctl := none, txColmod := none, result := some .done }) ∧
      (s.rstPresent = false → s.cfg.resetNoPin = .noop ∨ s.cfg.swResetSteps = [] →
        exec .reset s =
          .next { s with win := none, txMadctl := none, txColmod := none, result := some .done }) ∧
      ∀ (c : Byte) (p : List Byte) (wait : Nat), s.rstPresent = false → s.cfg.resetNoPin = .swreset →
        s.cfg.swResetSteps = [.frame c p, .delay wait] → p.length ≤ Config.busMax →
        (answerAt s 0 = .ok →
          exec .reset s =
            .next
              { s with
                trace := s.trace ++ bracket (commandFrame s.cfg s.bus.addrBits c p) ++ [.delay wait], csLevel := true
                answers := s.answers.tail, asked := s.asked + 1
                win := none, txMadctl := none, txColmod := none, result := some .done }) ∧
          ∀ st, answerAt s 0 = .fail st →
            exec .reset s = .next { failedCommand c p s with result := some (.ioError st) }

/-- 45_lifecycle_ops.md R224: INIT with the default `INIT_SEQ` sends SLPOUT, waits, sends COLMOD and MADCTL from the
mirror and DISPON; only the ghosts are written. At the first frame the bus refuses it ends: the frames before it were
sent and their ghosts stay, the rest is not sent. Decision of the spec: D48. -/
def Obligations.InitSendsTheDefaultSequence : Prop :=
  ∀ (s : State) (wait : Nat) (parts : List (List Event)), Ready s → s.cfg.Ok →
    s.cfg.initSeq = [.frame s.cfg.opSlpout [], .delay wait, .sendColmod, .sendMadctl, .frame s.cfg.opDispon []] →
    parts =
      [bracket (commandFrame s.cfg s.bus.addrBits s.cfg.opSlpout []),
       .delay wait :: bracket (commandFrame s.cfg s.bus.addrBits s.cfg.opColmod [s.colmod]),
       bracket (commandFrame s.cfg s.bus.addrBits s.cfg.opMadctl [s.madctl]),
       bracket (commandFrame s.cfg s.bus.addrBits s.cfg.opDispon [])] →
    (BusOk s 4 →
      exec .init s =
        .next
          { s with
            trace := s.trace ++ parts.flatten
            txColmod := some s.colmod, txMadctl := some s.madctl, csLevel := true
            answers := s.answers.drop 4, asked := s.asked + 4, result := some .done }) ∧
      ∀ k st, k < 4 → BusOk s k → answerAt s k = .fail st →
        exec .init s =
          .next
            { s with
              trace := s.trace ++ (parts.take (k + 1)).flatten
              txColmod := if 2 ≤ k then some s.colmod else s.txColmod
              txMadctl := if 3 ≤ k then some s.madctl else s.txMadctl
              csLevel := true, answers := s.answers.drop (k + 1), asked := s.asked + (k + 1)
              result := some (.ioError st) }

/-- 45_lifecycle_ops.md R224: for every admissible `INIT_SEQ`, "after a successful INIT both ghosts equal the mirror".
What is admissible beyond R224's constraint, that no raw frame carries MADCTL or COLMOD, is the model's (log entry 23).
Decision of the spec: D48. -/
def Obligations.SuccessfulInitSynchronisesTheGhosts : Prop :=
  ∀ s t : State, Ready s → s.cfg.Ok → exec .init s = .next t → t.result = some .done →
    t.txMadctl = some t.madctl ∧ t.txColmod = some t.colmod ∧ t.madctl = s.madctl ∧ t.colmod = s.colmod

/-! ### The whole machine -/

/-- 40_bus_transport.md R123: every step keeps the chip-select law, on every path. -/
def Obligations.StepKeepsTheChipSelectLaw : Prop :=
  ∀ s t : State, ChipSelectLaw s → step s = .next t → ChipSelectLaw t

/-- 10_state.md R40: every step keeps the logical size equal to the table's entry and `colmod` the code of `bpp`. -/
def Obligations.StepKeepsSizeAndFormat : Prop :=
  ∀ s t : State, SizeAndFormat s → step s = .next t → SizeAndFormat t

/-- 10_state.md R22: every step keeps the bus claimed exactly while the object is ACTIVE, with the handle's two widths
those the frames need, and an open colour transfer in an ACTIVE object. That a handle with other widths cannot construct
is the model's reading (log entry 26), and that a transfer can be open between steps its choice (log entry 15). -/
def Obligations.StepKeepsTheBusHeld : Prop :=
  ∀ s t : State, BusHeld s → step s = .next t → BusHeld t

/-- 10_state.md R34, 42_panel_protocol_ops.md R179: whatever the bus answers, every operation but the raw ones keeps
`MirrorOK`, for admissible parameters: that `INIT_SEQ` and a software reset hold no raw MADCTL or COLMOD frame is the
model's (log entries 23 and 9). Decisions of the spec: D15, D16. -/
def Obligations.MirrorSurvivesEveryOperationButRawOnes : Prop :=
  ∀ (s t : State) (i : Instr), s.cfg.Ok → sendsRaw i = false → MirrorOk s → exec i s = .next t → MirrorOk t

/-- 70_reset_and_hazards.md R267: a raw MADCTL byte, by SEND_CMD or by SUBMIT_COMMAND, moves the ghost and not the
mirror; the next operation that computes MADCTL from the mirror (SET_ROTATION, SET_ROTATION_TABLE, SET_COLOR_SPACE,
MIRROR, SWAP_XY) makes them agree again. A raw COLMOD byte leaves `colmod` and `bpp` stale. -/
def Obligations.RawMadctlDivergesUntilRepaired : Prop :=
  ∀ (s : State) (v : Byte), Ready s → s.cfg.Ok → BusOk s 2 →
    (∃ t, exec (.sendCmd s.cfg.opMadctl v 1) s = .next t ∧ exec (.submitCommand s.cfg.opMadctl [v]) s = .next t ∧
      t.txMadctl = some v ∧ t.madctl = s.madctl ∧ (v ≠ s.madctl → ¬ MirrorOk t) ∧
      ∀ i, ((∃ idx, i = .setRotation idx) ∨ (∃ idx table, i = .setRotationTable idx table) ∨
          (∃ k, (k = s.cfg.codeRgb ∨ k = s.cfg.codeBgr) ∧ i = .setColorSpace k) ∨
          (∃ mx my, i = .mirror mx my) ∨ ∃ sw, i = .swapXy sw) →
        ∃ u, exec i t = .next u ∧ u.result = some .done ∧ u.txMadctl = some u.madctl) ∧
      ∃ t, exec (.sendCmd s.cfg.opColmod v 1) s = .next t ∧ exec (.submitCommand s.cfg.opColmod [v]) s = .next t ∧
        t.txColmod = some v ∧ t.colmod = s.colmod ∧ t.bpp = s.bpp ∧ (v ≠ s.colmod → ¬ MirrorOk t)

/-- 10_state.md R39: a register outside an operation's `W` entries is unchanged whatever the outcome; for the ghosts the
command numbers must be told apart, as admissible parameters do. -/
def Obligations.OnlyItsWritersChangeARegister : Prop :=
  ∀ (s t : State) (i : Instr), exec i s = .next t →
    (.life ∉ writes i → t.life = s.life ∧ t.busClaimed = s.busClaimed ∧ t.bus = s.bus) ∧
      (.madctl ∉ writes i → t.madctl = s.madctl) ∧
      (.format ∉ writes i → t.colmod = s.colmod ∧ t.bpp = s.bpp) ∧
      (.colorSpace ∉ writes i → t.colorSpace = s.colorSpace) ∧
      (.rotation ∉ writes i → t.rotation = s.rotation ∧ t.width = s.width ∧ t.height = s.height) ∧
      (.gaps ∉ writes i → t.xGap = s.xGap ∧ t.yGap = s.yGap) ∧
      (.table ∉ writes i → t.rt = s.rt) ∧
      (.window ∉ writes i → t.win = s.win) ∧
      (.ghosts ∉ writes i → s.cfg.Ok → t.txMadctl = s.txMadctl ∧ t.txColmod = s.txColmod) ∧
      (.resetPin ∉ writes i → t.rstPresent = s.rstPresent ∧ t.rstActive = s.rstActive ∧ t.rstLevel = s.rstLevel)

/-- 60_exceptions.md R240, R246: while the object is not ACTIVE every operation but CONSTRUCT and DEINIT is
`Refused(not_active)` with no event and no state change. Decision of the spec: D49. -/
def Obligations.InactiveObjectRefusesOperations : Prop :=
  ∀ (s : State) (i : Instr), s.life ≠ .active → s.seq.phase = .idle →
    (∀ h rst rl k b, i ≠ .construct h rst rl k b) → i ≠ .deinit →
    exec i s = .next { s with result := some (.refused .notActive) }

/-- 10_state.md R21: "No operation leaves `RELEASED`". Decision of the spec: D49. -/
def Obligations.ReleasedIsFinal : Prop :=
  ∀ s t : State, s.life = .released → step s = .next t → t.life = .released

/-- 20_memory.md R74 (2): every event of an operation precedes every event of the next: a step only appends. -/
def Obligations.TraceOnlyGrows : Prop :=
  ∀ s t : State, step s = .next t → ∃ es, t.trace = s.trace ++ es

/-- 10_state.md R38: the parameters are arguments of the step, not state: no step changes them (log entry 1). -/
def Obligations.ParametersNeverChange : Prop :=
  ∀ s t : State, step s = .next t → t.cfg = s.cfg

/-- The model's choice (log entry 15) for 70_reset_and_hazards.md R270: while a colour transfer is open every
instruction but DATA is refused by name. -/
def Obligations.OpenTransferRefusesOtherOperations : Prop :=
  ∀ (s : State) (i : Instr), s.seq.phase ≠ .idle → (∀ d, i ≠ .data d) →
    exec i s = .refused .overlappingOperation

/-- 10_state.md R34: the ghosts are ghost state, "no operation's trace or result depends on them"; R25: of `win`, "no
rule reads it to decide anything". Two states that differ in the ghosts alone take the same outcome, to states that
differ in the ghosts alone; and so for two states that differ in `win` alone. For VSCROLL_START with the flag 1 this
rests on the model's choice of what `VSCROLL_WRAP_FN`, left open by 42_panel_protocol_ops.md R178, may read (log entry
6). Decisions of the spec: D15, D17, D43. -/
def Obligations.NoOutcomeDependsOnGhostsOrWindow : Prop :=
  ∀ (s t : State) (i : Instr),
    (SameButGhosts s t → SameOutcome SameButGhosts (exec i s) (exec i t)) ∧
      (SameButWindow s t → SameOutcome SameButWindow (exec i s) (exec i t))

/-- 20_memory.md R64: the address phase of a command frame and of a priming frame holds the panel command shifted left 8
bits; its low 8 bits and the bits above bit 15 are 0. The phase has at least the 16 bits the spec's D7 asks for. -/
def Obligations.AddressPhaseHoldsTheCommand : Prop :=
  ∀ (P : Params) (n : Nat) (c : Byte) (p : List Byte), 16 ≤ n →
    ∃ a b : AddrPhase, (commandFrame P n c p).addr = some a ∧ (primingFrame P n).addr = some b ∧
      a.bits = n ∧ b.bits = n ∧ a.value / 256 = c.toNat ∧ b.value / 256 = P.opRamwr.toNat ∧
      a.value % 256 = 0 ∧ b.value % 256 = 0 ∧ a.value < 2 ^ 16 ∧ b.value < 2 ^ 16
end

