-- ==== Sys2Proof/Laws/Codec.lean ====
section
/-! SUPPORT. The codec's small facts: each operand form reads back what the encoder writes, and a command frame carries
its command number; what admissible parameters give of coordinates and command numbers. -/

namespace Sys2Proof

/-! ### Operands -/

@[simp] theorem half_arg (v : Half) : (halfArg v).half? = some v := by
  have := v.isLt
  simp [halfArg, Operand.half?]; omega

@[simp] theorem half_int (v : Half) : (Operand.int v.toNat).half? = some v := half_arg v

@[simp] theorem byte_arg (v : Byte) : (Operand.int v.toNat).byte? = some v := by
  have := v.isLt
  simp [Operand.byte?]; omega

@[simp] theorem index_arg (v : BitVec 2) : (Operand.int v.toNat).index? = some v := by
  have := v.isLt
  simp [Operand.index?]; omega

@[simp] theorem i32_arg (v : I32) : (Operand.int v.toInt).i32? = some v := by
  have := BitVec.toInt_lt (x := v); have := BitVec.le_toInt (x := v)
  simp [Operand.i32?]; omega

@[simp] theorem bit_arg (b : Bool) : (bitArg b).bit? = some b := by cases b <;> rfl

@[simp] theorem nat_arg (n : Nat) : (Operand.int n).nat? = some n := by simp [Operand.nat?]

@[simp] theorem int_arg (n : Int) : (Operand.int n).int? = some n := rfl

@[simp] theorem opt_bit (b : Option Bool) : (optArg bitArg b).orAbsent Operand.bit? = some b := by
  rcases b with _ | _ | _ <;> rfl

@[simp] theorem opt_nat (b : Option Nat) : (optArg (fun n : Nat => .int n) b).orAbsent Operand.nat? = some b := by
  rcases b with _ | n <;> simp [optArg, Operand.orAbsent]

/-! ### Operand lists -/

theorem halves1_args (f : Half → Instr) (a : Half) : halves1 f [halfArg a] = some (f a) := by
  have h := half_arg
  generalize halfArg = g at *
  simp [halves1, h]

theorem halves2_args (f : Half → Half → Instr) (a b : Half) : halves2 f [halfArg a, halfArg b] = some (f a b) := by
  have h := half_arg
  generalize halfArg = g at *
  simp [halves2, h]

theorem halves3_args (f : Half → Half → Half → Instr) (a b c : Half) :
    halves3 f [halfArg a, halfArg b, halfArg c] = some (f a b c) := by
  have h := half_arg
  generalize halfArg = g at *
  simp [halves3, h]

theorem halves4_args (f : Half → Half → Half → Half → Instr) (a b c d : Half) :
    halves4 f [halfArg a, halfArg b, halfArg c, halfArg d] = some (f a b c d) := by
  have h := half_arg
  generalize halfArg = g at *
  simp [halves4, h]

theorem halves5_args (f : Half → Half → Half → Half → Half → Instr) (a b c d e : Half) :
    halves5 f [halfArg a, halfArg b, halfArg c, halfArg d, halfArg e] = some (f a b c d e) := by
  have h := half_arg
  generalize halfArg = g at *
  simp [halves5, h]

theorem bitmap_args (a b c d : Half) (p : List Byte) :
    bitmapOperands [halfArg a, halfArg b, halfArg c, halfArg d, .buf p] = some (.bitmap a b c d p) := by
  have h := half_arg
  generalize halfArg = g at *
  simp [bitmapOperands, h]

theorem vscrollStart_args (off : Half) (wrap : Option Bool) :
    vscrollStartOperands [halfArg off, optArg bitArg wrap] = some (.vscrollStart off wrap) := by
  have h := half_arg
  generalize halfArg = g at *
  simp [vscrollStartOperands, h]

theorem circle_args (f : I32 → I32 → I32 → Half → Instr) (xm ym r : I32) (c : Half) :
    circleOperands f [.int xm.toInt, .int ym.toInt, .int r.toInt, halfArg c] = some (f xm ym r c) := by
  have h := half_arg
  generalize halfArg = g at *
  simp [circleOperands, h]

/-! ### Frames -/

/-- The address phase gives the command number back (20_memory.md R64). -/
theorem addrCommand_addrOf {P : Params} (h : 16 ≤ P.addrBits) (c : Byte) : addrCommand (addrOf P.addrBits c) = c := by
  have := c.isLt
  have h2 : c.toNat * 256 < 2 ^ P.addrBits :=
    lt_of_lt_of_le (by omega : _ < 2 ^ 16) (Nat.pow_le_pow_right (by decide) h)
  apply BitVec.eq_of_toNat_eq
  simp [addrCommand, addrOf, Config.addrShift, Nat.mod_eq_of_lt h2]

theorem join_hi_lo (v : Half) : join (hi v) (lo v) = v := by
  apply BitVec.eq_of_getLsbD_eq
  intro i hi'
  rw [join, BitVec.getLsbD_append]
  simp only [hi, lo, BitVec.getLsbD_extractLsb']
  split_ifs with h
  · simp [h]
  · simp [show i - 8 < 8 by omega, show 8 + (i - 8) = i by omega]

/-- A command frame is parsed by its number and its bytes. -/
theorem parse_command {P : Params} (h : 16 ≤ P.addrBits) (c : Byte) (p : List Byte) :
    parse P (commandItem P c p) = .ok (parseCommand P c p) := by
  have hc := addrCommand_addrOf h c
  simp only [commandItem, parse, parseFrame, commandFrame]
  simp [hc]

/-! ### Which reader an encoded request meets -/

theorem parse_encode_setWindow (P : Params) x0 y0 x1 y1 : parse P (encode P (.setWindow x0 y0 x1 y1)) =
    needOperands (halves4 .setWindow [halfArg x0, halfArg y0, halfArg x1, halfArg y1]) := rfl
theorem parse_encode_setGap (P : Params) gx gy : parse P (encode P (.setGap gx gy)) =
    needOperands (halves2 .setGap [halfArg gx, halfArg gy]) := rfl
theorem parse_encode_vscrollArea (P : Params) a b d : parse P (encode P (.vscrollArea a b d)) =
    needOperands (halves3 .vscrollArea [halfArg a, halfArg b, halfArg d]) := rfl
theorem parse_encode_vscrollStart (P : Params) off wrap : parse P (encode P (.vscrollStart off wrap)) =
    needOperands (vscrollStartOperands [halfArg off, optArg bitArg wrap]) := rfl
theorem parse_encode_pixel (P : Params) x y c : parse P (encode P (.pixel x y c)) =
    needOperands (halves3 .pixel [halfArg x, halfArg y, halfArg c]) := rfl
theorem parse_encode_fill (P : Params) c : parse P (encode P (.fill c)) =
    needOperands (halves1 .fill [halfArg c]) := rfl
theorem parse_encode_fillRect (P : Params) x y w h c : parse P (encode P (.fillRect x y w h c)) =
    needOperands (halves5 .fillRect [halfArg x, halfArg y, halfArg w, halfArg h, halfArg c]) := rfl
theorem parse_encode_hline (P : Params) x y w c : parse P (encode P (.hline x y w c)) =
    needOperands (halves4 .hline [halfArg x, halfArg y, halfArg w, halfArg c]) := rfl
theorem parse_encode_vline (P : Params) x y h c : parse P (encode P (.vline x y h c)) =
    needOperands (halves4 .vline [halfArg x, halfArg y, halfArg h, halfArg c]) := rfl
theorem parse_encode_bitmap (P : Params) x0 y0 x1 y1 buf : parse P (encode P (.bitmap x0 y0 x1 y1 buf)) =
    needOperands (bitmapOperands [halfArg x0, halfArg y0, halfArg x1, halfArg y1, .buf buf]) := rfl
theorem parse_encode_rect (P : Params) x y w h c : parse P (encode P (.rect x y w h c)) =
    needOperands (halves5 .rect [halfArg x, halfArg y, halfArg w, halfArg h, halfArg c]) := rfl
theorem parse_encode_circle (P : Params) xm ym r c : parse P (encode P (.circle xm ym r c)) =
    needOperands (circleOperands .circle [.int xm.toInt, .int ym.toInt, .int r.toInt, halfArg c]) := rfl
theorem parse_encode_fillCircle (P : Params) xm ym r c : parse P (encode P (.fillCircle xm ym r c)) =
    needOperands (circleOperands .fillCircle [.int xm.toInt, .int ym.toInt, .int r.toInt, halfArg c]) := rfl

/-! ### Coordinates of the block -/

/-- The mask keeps `COORD_BITS - 8` bits of the high byte (20_memory.md R65). -/
theorem coordHiMask_and {P : Params} (h1 : 10 ≤ P.coordBits) (h2 : P.coordBits ≤ 16) (v : Half) :
    (hi v &&& coordHiMask P).toNat = (hi v).toNat % 2 ^ (P.coordBits - 8) := by
  have hle : 2 ^ (P.coordBits - 8) ≤ 2 ^ 8 := Nat.pow_le_pow_right (by decide) (by omega)
  have hp : 0 < 2 ^ (P.coordBits - 8) := by positivity
  rw [BitVec.toNat_and, coordHiMask, BitVec.toNat_ofNat, Nat.mod_eq_of_lt (by omega), Nat.and_two_pow_sub_one_eq_mod]

/-- A coordinate that fits is not changed by the mask. -/
theorem coordHiMask_fits {P : Params} (h1 : 10 ≤ P.coordBits) (h2 : P.coordBits ≤ 16) {v : Half}
    (hv : coordFits P v = true) : hi v &&& coordHiMask P = hi v := by
  have hv : v.toNat < 2 ^ P.coordBits := by simpa [coordFits] using hv
  apply BitVec.eq_of_toNat_eq
  rw [coordHiMask_and h1 h2, Nat.mod_eq_of_lt]
  simp only [hi, BitVec.extractLsb'_toNat, Nat.shiftRight_eq_div_pow]
  rw [show 2 ^ P.coordBits = 2 ^ (P.coordBits - 8) * 256 from by
    rw [show 256 = 2 ^ 8 from rfl, ← pow_add]; congr; omega] at hv
  rw [Nat.mod_eq_of_lt (by omega)]
  omega

/-- The block of two coordinates that fit is their four bytes. -/
theorem coord4_fits {P : Params} (h1 : 10 ≤ P.coordBits) (h2 : P.coordBits ≤ 16) {a b : Half}
    (ha : coordFits P a = true) (hb : coordFits P b = true) : coord4 P a b = [hi a, lo a, hi b, lo b] := by
  rw [coord4, coordHiMask_fits h1 h2 ha, coordHiMask_fits h1 h2 hb]

/-! ### The command numbers of admissible parameters -/

theorem Params.Ok.madctl_ne_colmod {P : Params} (h : P.Ok) : P.opMadctl ≠ P.opColmod := by
  have hn := h.1
  simp only [Params.opcodes, List.nodup_cons, List.mem_cons, not_or] at hn
  exact hn.2.2.2.2.2.2.2.2.2.2.1.2.1

theorem Params.Ok.wrdisbv_ne {P : Params} (h : P.Ok) : P.opWrdisbv ≠ P.opMadctl ∧ P.opWrdisbv ≠ P.opColmod := by
  have hn := h.1
  simp only [Params.opcodes, List.nodup_cons, List.mem_cons, not_or] at hn
  exact ⟨Ne.symm hn.2.2.2.2.2.2.2.2.2.2.1.2.2.1, Ne.symm hn.2.2.2.2.2.2.2.2.2.2.2.2.1.1⟩

end Sys2Proof
end

