-- ==== Sys2Proof/Laws/State.lean ====
section
/-! SUPPORT. One lemma per field per update, each true by `rfl`. The spec's fields are those of `toQpc`: a projection of
the record on the right reduces by itself. -/

namespace Sys2Proof.Machine

@[simp] theorem emit_toQpc (e : Event) (s : State) :
    (emit e s).toQpc = s.toQpc := rfl
@[simp] theorem emit_cfg (e : Event) (s : State) :
    (emit e s).cfg = s.cfg := rfl
@[simp] theorem emit_port (e : Event) (s : State) :
    (emit e s).port = s.port := rfl
@[simp] theorem emit_answers (e : Event) (s : State) :
    (emit e s).answers = s.answers := rfl
@[simp] theorem emit_asked (e : Event) (s : State) :
    (emit e s).asked = s.asked := rfl
@[simp] theorem emit_trace (e : Event) (s : State) :
    (emit e s).trace = s.trace ++ [e] := rfl
@[simp] theorem emit_result (e : Event) (s : State) :
    (emit e s).result = s.result := rfl

@[simp] theorem cs_toQpc (level : Bool) (s : State) :
    (cs level s).toQpc = { s.toQpc with csLevel := level } := rfl
@[simp] theorem cs_cfg (level : Bool) (s : State) :
    (cs level s).cfg = s.cfg := rfl
@[simp] theorem cs_port (level : Bool) (s : State) :
    (cs level s).port = s.port := rfl
@[simp] theorem cs_answers (level : Bool) (s : State) :
    (cs level s).answers = s.answers := rfl
@[simp] theorem cs_asked (level : Bool) (s : State) :
    (cs level s).asked = s.asked := rfl
@[simp] theorem cs_trace (level : Bool) (s : State) :
    (cs level s).trace = s.trace ++ [.cs level] := rfl
@[simp] theorem cs_result (level : Bool) (s : State) :
    (cs level s).result = s.result := rfl

@[simp] theorem pinWriteRst_toQpc (level : Bool) (s : State) :
    (pinWriteRst level s).toQpc = { s.toQpc with rstLevel := level } := rfl
@[simp] theorem pinWriteRst_cfg (level : Bool) (s : State) :
    (pinWriteRst level s).cfg = s.cfg := rfl
@[simp] theorem pinWriteRst_port (level : Bool) (s : State) :
    (pinWriteRst level s).port = s.port := rfl
@[simp] theorem pinWriteRst_answers (level : Bool) (s : State) :
    (pinWriteRst level s).answers = s.answers := rfl
@[simp] theorem pinWriteRst_asked (level : Bool) (s : State) :
    (pinWriteRst level s).asked = s.asked := rfl
@[simp] theorem pinWriteRst_trace (level : Bool) (s : State) :
    (pinWriteRst level s).trace = s.trace ++ [.rst level] := rfl
@[simp] theorem pinWriteRst_result (level : Bool) (s : State) :
    (pinWriteRst level s).result = s.result := rfl

@[simp] theorem delayUs_toQpc (n : Nat) (s : State) :
    (delayUs n s).toQpc = s.toQpc := rfl
@[simp] theorem delayUs_cfg (n : Nat) (s : State) :
    (delayUs n s).cfg = s.cfg := rfl
@[simp] theorem delayUs_port (n : Nat) (s : State) :
    (delayUs n s).port = s.port := rfl
@[simp] theorem delayUs_answers (n : Nat) (s : State) :
    (delayUs n s).answers = s.answers := rfl
@[simp] theorem delayUs_asked (n : Nat) (s : State) :
    (delayUs n s).asked = s.asked := rfl
@[simp] theorem delayUs_trace (n : Nat) (s : State) :
    (delayUs n s).trace = s.trace ++ [.delay n] := rfl
@[simp] theorem delayUs_result (n : Nat) (s : State) :
    (delayUs n s).result = s.result := rfl

@[simp] theorem warn_toQpc (w : Warning) (s : State) :
    (warn w s).toQpc = s.toQpc := rfl
@[simp] theorem warn_cfg (w : Warning) (s : State) :
    (warn w s).cfg = s.cfg := rfl
@[simp] theorem warn_port (w : Warning) (s : State) :
    (warn w s).port = s.port := rfl
@[simp] theorem warn_answers (w : Warning) (s : State) :
    (warn w s).answers = s.answers := rfl
@[simp] theorem warn_asked (w : Warning) (s : State) :
    (warn w s).asked = s.asked := rfl
@[simp] theorem warn_trace (w : Warning) (s : State) :
    (warn w s).trace = s.trace ++ [.warn w] := rfl
@[simp] theorem warn_result (w : Warning) (s : State) :
    (warn w s).result = s.result := rfl

@[simp] theorem release_toQpc (s : State) :
    (release s).toQpc = s.toQpc := rfl
@[simp] theorem release_cfg (s : State) :
    (release s).cfg = s.cfg := rfl
@[simp] theorem release_port (s : State) :
    (release s).port = s.port := rfl
@[simp] theorem release_answers (s : State) :
    (release s).answers = s.answers := rfl
@[simp] theorem release_asked (s : State) :
    (release s).asked = s.asked := rfl
@[simp] theorem release_trace (s : State) :
    (release s).trace = s.trace ++ [.release] := rfl
@[simp] theorem release_result (s : State) :
    (release s).result = s.result := rfl

@[simp] theorem ask_toQpc (s : State) :
    (ask s).toQpc = s.toQpc := rfl
@[simp] theorem ask_cfg (s : State) :
    (ask s).cfg = s.cfg := rfl
@[simp] theorem ask_port (s : State) :
    (ask s).port = s.port := rfl
@[simp] theorem ask_answers (s : State) :
    (ask s).answers = s.answers.tail := rfl
@[simp] theorem ask_asked (s : State) :
    (ask s).asked = s.asked + 1 := rfl
@[simp] theorem ask_trace (s : State) :
    (ask s).trace = s.trace := rfl
@[simp] theorem ask_result (s : State) :
    (ask s).result = s.result := rfl

@[simp] theorem setPhase_toQpc (p : Phase) (s : State) :
    (setPhase p s).toQpc = { s.toQpc with seq := { s.seq with phase := p } } := rfl
@[simp] theorem setPhase_cfg (p : Phase) (s : State) :
    (setPhase p s).cfg = s.cfg := rfl
@[simp] theorem setPhase_port (p : Phase) (s : State) :
    (setPhase p s).port = s.port := rfl
@[simp] theorem setPhase_answers (p : Phase) (s : State) :
    (setPhase p s).answers = s.answers := rfl
@[simp] theorem setPhase_asked (p : Phase) (s : State) :
    (setPhase p s).asked = s.asked := rfl
@[simp] theorem setPhase_trace (p : Phase) (s : State) :
    (setPhase p s).trace = s.trace := rfl
@[simp] theorem setPhase_result (p : Phase) (s : State) :
    (setPhase p s).result = s.result := rfl

@[simp] theorem commitRotation_toQpc (i : BitVec 2) (e : RotEntry) (m : Byte) (s : State) :
    (commitRotation i e m s).toQpc = { s.toQpc with
      madctl := m, rotation := i, width := e.width, height := e.height, xGap := e.colstart, yGap := e.rowstart } := rfl
@[simp] theorem commitRotation_cfg (i : BitVec 2) (e : RotEntry) (m : Byte) (s : State) :
    (commitRotation i e m s).cfg = s.cfg := rfl
@[simp] theorem commitRotation_port (i : BitVec 2) (e : RotEntry) (m : Byte) (s : State) :
    (commitRotation i e m s).port = s.port := rfl
@[simp] theorem commitRotation_answers (i : BitVec 2) (e : RotEntry) (m : Byte) (s : State) :
    (commitRotation i e m s).answers = s.answers := rfl
@[simp] theorem commitRotation_asked (i : BitVec 2) (e : RotEntry) (m : Byte) (s : State) :
    (commitRotation i e m s).asked = s.asked := rfl
@[simp] theorem commitRotation_trace (i : BitVec 2) (e : RotEntry) (m : Byte) (s : State) :
    (commitRotation i e m s).trace = s.trace := rfl
@[simp] theorem commitRotation_result (i : BitVec 2) (e : RotEntry) (m : Byte) (s : State) :
    (commitRotation i e m s).result = s.result := rfl

@[simp] theorem bindBus_toQpc (h : BusHandle) (rst : Option Nat) (rl : Bool) (s : State) :
    (bindBus h rst rl s).toQpc = { s.toQpc with
      bus := h, busClaimed := true, csLevel := Config.csDeassert
      rstPresent := rst.isSome, rstActive := rl, rstLevel := !rl } := rfl
@[simp] theorem bindBus_cfg (h : BusHandle) (rst : Option Nat) (rl : Bool) (s : State) :
    (bindBus h rst rl s).cfg = s.cfg := rfl
@[simp] theorem bindBus_port (h : BusHandle) (rst : Option Nat) (rl : Bool) (s : State) :
    (bindBus h rst rl s).port = s.port := rfl
@[simp] theorem bindBus_answers (h : BusHandle) (rst : Option Nat) (rl : Bool) (s : State) :
    (bindBus h rst rl s).answers = s.answers := rfl
@[simp] theorem bindBus_asked (h : BusHandle) (rst : Option Nat) (rl : Bool) (s : State) :
    (bindBus h rst rl s).asked = s.asked := rfl
@[simp] theorem bindBus_trace (h : BusHandle) (rst : Option Nat) (rl : Bool) (s : State) :
    (bindBus h rst rl s).trace = s.trace := rfl
@[simp] theorem bindBus_result (h : BusHandle) (rst : Option Nat) (rl : Bool) (s : State) :
    (bindBus h rst rl s).result = s.result := rfl

@[simp] theorem startMirror_toQpc (k : ColorSpace) (d : Depth) (s : State) :
    (startMirror k d s).toQpc = { s.toQpc with
      colorSpace := k, bpp := d, colmod := colmodCode d, madctl := colorSpaceBits s.cfg k
      win := none, txMadctl := none, txColmod := none, life := .active } := rfl
@[simp] theorem startMirror_cfg (k : ColorSpace) (d : Depth) (s : State) :
    (startMirror k d s).cfg = s.cfg := rfl
@[simp] theorem startMirror_port (k : ColorSpace) (d : Depth) (s : State) :
    (startMirror k d s).port = s.port := rfl
@[simp] theorem startMirror_answers (k : ColorSpace) (d : Depth) (s : State) :
    (startMirror k d s).answers = s.answers := rfl
@[simp] theorem startMirror_asked (k : ColorSpace) (d : Depth) (s : State) :
    (startMirror k d s).asked = s.asked := rfl
@[simp] theorem startMirror_trace (k : ColorSpace) (d : Depth) (s : State) :
    (startMirror k d s).trace = s.trace := rfl
@[simp] theorem startMirror_result (k : ColorSpace) (d : Depth) (s : State) :
    (startMirror k d s).result = s.result := rfl

/-! ### What an open function of the state sees -/

/-- The ghosts are not part of it (10_state.md R34). -/
@[simp] theorem visible_ghosts (q : Qpc) (m c : Option Byte) :
    visible { q with txMadctl := m, txColmod := c } = visible q := rfl

/-- Nor is the window (10_state.md R25). -/
@[simp] theorem visible_window (q : Qpc) (w : Option Window) : visible { q with win := w } = visible q := rfl

/-! ### `BRIGHT_MAP` -/

theorem brightMap_low (P : Params) {c : Int} (h : c ≤ 0) : brightMap P c = 0x00 := if_pos h

theorem brightMap_high (P : Params) {c : Int} (h : 100 ≤ c) : brightMap P c = 0xFF := by
  rw [brightMap, if_neg (by simp only [Config.brightLo]; omega), Vector.getElem?_eq_none (by omega)]
  rfl

theorem brightMap_entry (P : Params) (k : Fin 99) : brightMap P ((k.val : Int) + 1) = P.brightMap[k.val] := by
  rw [brightMap, if_neg (by simp only [Config.brightLo]; omega)]
  simp

end Sys2Proof.Machine
end

