-- ==== Sys2Proof/Laws/Sent.lean ====
section
/-! SUPPORT. One lemma per field for the states that transmissions leave behind. -/

namespace Sys2Proof.Safety

open Sys2Proof.Machine

@[simp] theorem failedCommand_life (c : Byte) (p : List Byte) (s : State) :
    (failedCommand c p s).life = s.life := rfl
@[simp] theorem failedCommand_bus (c : Byte) (p : List Byte) (s : State) :
    (failedCommand c p s).bus = s.bus := rfl
@[simp] theorem failedCommand_busClaimed (c : Byte) (p : List Byte) (s : State) :
    (failedCommand c p s).busClaimed = s.busClaimed := rfl
@[simp] theorem failedCommand_madctl (c : Byte) (p : List Byte) (s : State) :
    (failedCommand c p s).madctl = s.madctl := rfl
@[simp] theorem failedCommand_colmod (c : Byte) (p : List Byte) (s : State) :
    (failedCommand c p s).colmod = s.colmod := rfl
@[simp] theorem failedCommand_win (c : Byte) (p : List Byte) (s : State) :
    (failedCommand c p s).win = s.win := rfl
@[simp] theorem failedCommand_rotation (c : Byte) (p : List Byte) (s : State) :
    (failedCommand c p s).rotation = s.rotation := rfl
@[simp] theorem failedCommand_xGap (c : Byte) (p : List Byte) (s : State) :
    (failedCommand c p s).xGap = s.xGap := rfl
@[simp] theorem failedCommand_yGap (c : Byte) (p : List Byte) (s : State) :
    (failedCommand c p s).yGap = s.yGap := rfl
@[simp] theorem failedCommand_width (c : Byte) (p : List Byte) (s : State) :
    (failedCommand c p s).width = s.width := rfl
@[simp] theorem failedCommand_height (c : Byte) (p : List Byte) (s : State) :
    (failedCommand c p s).height = s.height := rfl
@[simp] theorem failedCommand_colorSpace (c : Byte) (p : List Byte) (s : State) :
    (failedCommand c p s).colorSpace = s.colorSpace := rfl
@[simp] theorem failedCommand_bpp (c : Byte) (p : List Byte) (s : State) :
    (failedCommand c p s).bpp = s.bpp := rfl
@[simp] theorem failedCommand_rt (c : Byte) (p : List Byte) (s : State) :
    (failedCommand c p s).rt = s.rt := rfl
@[simp] theorem failedCommand_seq (c : Byte) (p : List Byte) (s : State) :
    (failedCommand c p s).seq = s.seq := rfl
@[simp] theorem failedCommand_txMadctl (c : Byte) (p : List Byte) (s : State) :
    (failedCommand c p s).txMadctl = s.txMadctl := rfl
@[simp] theorem failedCommand_txColmod (c : Byte) (p : List Byte) (s : State) :
    (failedCommand c p s).txColmod = s.txColmod := rfl
@[simp] theorem failedCommand_csLevel (c : Byte) (p : List Byte) (s : State) :
    (failedCommand c p s).csLevel = true := rfl
@[simp] theorem failedCommand_rstPresent (c : Byte) (p : List Byte) (s : State) :
    (failedCommand c p s).rstPresent = s.rstPresent := rfl
@[simp] theorem failedCommand_rstActive (c : Byte) (p : List Byte) (s : State) :
    (failedCommand c p s).rstActive = s.rstActive := rfl
@[simp] theorem failedCommand_rstLevel (c : Byte) (p : List Byte) (s : State) :
    (failedCommand c p s).rstLevel = s.rstLevel := rfl
@[simp] theorem failedCommand_cfg (c : Byte) (p : List Byte) (s : State) :
    (failedCommand c p s).cfg = s.cfg := rfl
@[simp] theorem failedCommand_port (c : Byte) (p : List Byte) (s : State) :
    (failedCommand c p s).port = s.port := rfl
@[simp] theorem failedCommand_answers (c : Byte) (p : List Byte) (s : State) :
    (failedCommand c p s).answers = s.answers.tail := rfl
@[simp] theorem failedCommand_asked (c : Byte) (p : List Byte) (s : State) :
    (failedCommand c p s).asked = s.asked + 1 := rfl
@[simp] theorem failedCommand_trace (c : Byte) (p : List Byte) (s : State) :
    (failedCommand c p s).trace = s.trace ++ bracket (commandFrame s.cfg s.bus.addrBits c p) := rfl
@[simp] theorem failedCommand_result (c : Byte) (p : List Byte) (s : State) :
    (failedCommand c p s).result = s.result := rfl

@[simp] theorem sentCommand_life (c : Byte) (p : List Byte) (s : State) :
    (sentCommand c p s).life = s.life := rfl
@[simp] theorem sentCommand_bus (c : Byte) (p : List Byte) (s : State) :
    (sentCommand c p s).bus = s.bus := rfl
@[simp] theorem sentCommand_busClaimed (c : Byte) (p : List Byte) (s : State) :
    (sentCommand c p s).busClaimed = s.busClaimed := rfl
@[simp] theorem sentCommand_madctl (c : Byte) (p : List Byte) (s : State) :
    (sentCommand c p s).madctl = s.madctl := rfl
@[simp] theorem sentCommand_colmod (c : Byte) (p : List Byte) (s : State) :
    (sentCommand c p s).colmod = s.colmod := rfl
@[simp] theorem sentCommand_win (c : Byte) (p : List Byte) (s : State) :
    (sentCommand c p s).win = s.win := rfl
@[simp] theorem sentCommand_rotation (c : Byte) (p : List Byte) (s : State) :
    (sentCommand c p s).rotation = s.rotation := rfl
@[simp] theorem sentCommand_xGap (c : Byte) (p : List Byte) (s : State) :
    (sentCommand c p s).xGap = s.xGap := rfl
@[simp] theorem sentCommand_yGap (c : Byte) (p : List Byte) (s : State) :
    (sentCommand c p s).yGap = s.yGap := rfl
@[simp] theorem sentCommand_width (c : Byte) (p : List Byte) (s : State) :
    (sentCommand c p s).width = s.width := rfl
@[simp] theorem sentCommand_height (c : Byte) (p : List Byte) (s : State) :
    (sentCommand c p s).height = s.height := rfl
@[simp] theorem sentCommand_colorSpace (c : Byte) (p : List Byte) (s : State) :
    (sentCommand c p s).colorSpace = s.colorSpace := rfl
@[simp] theorem sentCommand_bpp (c : Byte) (p : List Byte) (s : State) :
    (sentCommand c p s).bpp = s.bpp := rfl
@[simp] theorem sentCommand_rt (c : Byte) (p : List Byte) (s : State) :
    (sentCommand c p s).rt = s.rt := rfl
@[simp] theorem sentCommand_seq (c : Byte) (p : List Byte) (s : State) :
    (sentCommand c p s).seq = s.seq := rfl
@[simp] theorem sentCommand_txMadctl (c : Byte) (p : List Byte) (s : State) :
    (sentCommand c p s).txMadctl = (if p.length = 1 ∧ c = s.cfg.opMadctl then p.head? else s.txMadctl) := rfl
@[simp] theorem sentCommand_txColmod (c : Byte) (p : List Byte) (s : State) :
    (sentCommand c p s).txColmod = (if p.length = 1 ∧ c = s.cfg.opColmod then p.head? else s.txColmod) := rfl
@[simp] theorem sentCommand_csLevel (c : Byte) (p : List Byte) (s : State) :
    (sentCommand c p s).csLevel = true := rfl
@[simp] theorem sentCommand_rstPresent (c : Byte) (p : List Byte) (s : State) :
    (sentCommand c p s).rstPresent = s.rstPresent := rfl
@[simp] theorem sentCommand_rstActive (c : Byte) (p : List Byte) (s : State) :
    (sentCommand c p s).rstActive = s.rstActive := rfl
@[simp] theorem sentCommand_rstLevel (c : Byte) (p : List Byte) (s : State) :
    (sentCommand c p s).rstLevel = s.rstLevel := rfl
@[simp] theorem sentCommand_cfg (c : Byte) (p : List Byte) (s : State) :
    (sentCommand c p s).cfg = s.cfg := rfl
@[simp] theorem sentCommand_port (c : Byte) (p : List Byte) (s : State) :
    (sentCommand c p s).port = s.port := rfl
@[simp] theorem sentCommand_answers (c : Byte) (p : List Byte) (s : State) :
    (sentCommand c p s).answers = s.answers.tail := rfl
@[simp] theorem sentCommand_asked (c : Byte) (p : List Byte) (s : State) :
    (sentCommand c p s).asked = s.asked + 1 := rfl
@[simp] theorem sentCommand_trace (c : Byte) (p : List Byte) (s : State) :
    (sentCommand c p s).trace = s.trace ++ bracket (commandFrame s.cfg s.bus.addrBits c p) := rfl
@[simp] theorem sentCommand_result (c : Byte) (p : List Byte) (s : State) :
    (sentCommand c p s).result = s.result := rfl

@[simp] theorem sentWindow_life (x0 y0 x1 y1 : Int) (s : State) :
    (sentWindow x0 y0 x1 y1 s).life = s.life := by simp [sentWindow, coord4]
@[simp] theorem sentWindow_bus (x0 y0 x1 y1 : Int) (s : State) :
    (sentWindow x0 y0 x1 y1 s).bus = s.bus := by simp [sentWindow, coord4]
@[simp] theorem sentWindow_busClaimed (x0 y0 x1 y1 : Int) (s : State) :
    (sentWindow x0 y0 x1 y1 s).busClaimed = s.busClaimed := by simp [sentWindow, coord4]
@[simp] theorem sentWindow_madctl (x0 y0 x1 y1 : Int) (s : State) :
    (sentWindow x0 y0 x1 y1 s).madctl = s.madctl := by simp [sentWindow, coord4]
@[simp] theorem sentWindow_colmod (x0 y0 x1 y1 : Int) (s : State) :
    (sentWindow x0 y0 x1 y1 s).colmod = s.colmod := by simp [sentWindow, coord4]
@[simp] theorem sentWindow_win (x0 y0 x1 y1 : Int) (s : State) :
    (sentWindow x0 y0 x1 y1 s).win = some ⟨coord x0, coord y0, coord x1, coord y1⟩ := by simp [sentWindow, coord4]
@[simp] theorem sentWindow_rotation (x0 y0 x1 y1 : Int) (s : State) :
    (sentWindow x0 y0 x1 y1 s).rotation = s.rotation := by simp [sentWindow, coord4]
@[simp] theorem sentWindow_xGap (x0 y0 x1 y1 : Int) (s : State) :
    (sentWindow x0 y0 x1 y1 s).xGap = s.xGap := by simp [sentWindow, coord4]
@[simp] theorem sentWindow_yGap (x0 y0 x1 y1 : Int) (s : State) :
    (sentWindow x0 y0 x1 y1 s).yGap = s.yGap := by simp [sentWindow, coord4]
@[simp] theorem sentWindow_width (x0 y0 x1 y1 : Int) (s : State) :
    (sentWindow x0 y0 x1 y1 s).width = s.width := by simp [sentWindow, coord4]
@[simp] theorem sentWindow_height (x0 y0 x1 y1 : Int) (s : State) :
    (sentWindow x0 y0 x1 y1 s).height = s.height := by simp [sentWindow, coord4]
@[simp] theorem sentWindow_colorSpace (x0 y0 x1 y1 : Int) (s : State) :
    (sentWindow x0 y0 x1 y1 s).colorSpace = s.colorSpace := by simp [sentWindow, coord4]
@[simp] theorem sentWindow_bpp (x0 y0 x1 y1 : Int) (s : State) :
    (sentWindow x0 y0 x1 y1 s).bpp = s.bpp := by simp [sentWindow, coord4]
@[simp] theorem sentWindow_rt (x0 y0 x1 y1 : Int) (s : State) :
    (sentWindow x0 y0 x1 y1 s).rt = s.rt := by simp [sentWindow, coord4]
@[simp] theorem sentWindow_seq (x0 y0 x1 y1 : Int) (s : State) :
    (sentWindow x0 y0 x1 y1 s).seq = s.seq := by simp [sentWindow, coord4]
@[simp] theorem sentWindow_txMadctl (x0 y0 x1 y1 : Int) (s : State) :
    (sentWindow x0 y0 x1 y1 s).txMadctl = s.txMadctl := by simp [sentWindow, coord4]
@[simp] theorem sentWindow_txColmod (x0 y0 x1 y1 : Int) (s : State) :
    (sentWindow x0 y0 x1 y1 s).txColmod = s.txColmod := by simp [sentWindow, coord4]
@[simp] theorem sentWindow_csLevel (x0 y0 x1 y1 : Int) (s : State) :
    (sentWindow x0 y0 x1 y1 s).csLevel = true := by simp [sentWindow, coord4]
@[simp] theorem sentWindow_rstPresent (x0 y0 x1 y1 : Int) (s : State) :
    (sentWindow x0 y0 x1 y1 s).rstPresent = s.rstPresent := by simp [sentWindow, coord4]
@[simp] theorem sentWindow_rstActive (x0 y0 x1 y1 : Int) (s : State) :
    (sentWindow x0 y0 x1 y1 s).rstActive = s.rstActive := by simp [sentWindow, coord4]
@[simp] theorem sentWindow_rstLevel (x0 y0 x1 y1 : Int) (s : State) :
    (sentWindow x0 y0 x1 y1 s).rstLevel = s.rstLevel := by simp [sentWindow, coord4]
@[simp] theorem sentWindow_cfg (x0 y0 x1 y1 : Int) (s : State) :
    (sentWindow x0 y0 x1 y1 s).cfg = s.cfg := by simp [sentWindow, coord4]
@[simp] theorem sentWindow_port (x0 y0 x1 y1 : Int) (s : State) :
    (sentWindow x0 y0 x1 y1 s).port = s.port := by simp [sentWindow, coord4]
@[simp] theorem sentWindow_answers (x0 y0 x1 y1 : Int) (s : State) :
    (sentWindow x0 y0 x1 y1 s).answers = s.answers.drop 2 := by
  rcases hs : s.answers with _ | ⟨a, _ | ⟨b, l⟩⟩ <;> simp [sentWindow, hs]
@[simp] theorem sentWindow_asked (x0 y0 x1 y1 : Int) (s : State) :
    (sentWindow x0 y0 x1 y1 s).asked = s.asked + 2 := by simp [sentWindow, coord4]
@[simp] theorem sentWindow_trace (x0 y0 x1 y1 : Int) (s : State) :
    (sentWindow x0 y0 x1 y1 s).trace =
      s.trace ++ bracket (commandFrame s.cfg s.bus.addrBits s.cfg.opCaset (coord4 s.cfg (coord x0) (coord x1))) ++
        bracket (commandFrame s.cfg s.bus.addrBits s.cfg.opRaset (coord4 s.cfg (coord y0) (coord y1))) := by
  simp [sentWindow, coord4]
@[simp] theorem sentWindow_result (x0 y0 x1 y1 : Int) (s : State) :
    (sentWindow x0 y0 x1 y1 s).result = s.result := by simp [sentWindow, coord4]

@[simp] theorem streamed_life (p : List Byte) (s : State) :
    (streamed p s).life = s.life := rfl
@[simp] theorem streamed_bus (p : List Byte) (s : State) :
    (streamed p s).bus = s.bus := rfl
@[simp] theorem streamed_busClaimed (p : List Byte) (s : State) :
    (streamed p s).busClaimed = s.busClaimed := rfl
@[simp] theorem streamed_madctl (p : List Byte) (s : State) :
    (streamed p s).madctl = s.madctl := rfl
@[simp] theorem streamed_colmod (p : List Byte) (s : State) :
    (streamed p s).colmod = s.colmod := rfl
@[simp] theorem streamed_win (p : List Byte) (s : State) :
    (streamed p s).win = s.win := rfl
@[simp] theorem streamed_rotation (p : List Byte) (s : State) :
    (streamed p s).rotation = s.rotation := rfl
@[simp] theorem streamed_xGap (p : List Byte) (s : State) :
    (streamed p s).xGap = s.xGap := rfl
@[simp] theorem streamed_yGap (p : List Byte) (s : State) :
    (streamed p s).yGap = s.yGap := rfl
@[simp] theorem streamed_width (p : List Byte) (s : State) :
    (streamed p s).width = s.width := rfl
@[simp] theorem streamed_height (p : List Byte) (s : State) :
    (streamed p s).height = s.height := rfl
@[simp] theorem streamed_colorSpace (p : List Byte) (s : State) :
    (streamed p s).colorSpace = s.colorSpace := rfl
@[simp] theorem streamed_bpp (p : List Byte) (s : State) :
    (streamed p s).bpp = s.bpp := rfl
@[simp] theorem streamed_rt (p : List Byte) (s : State) :
    (streamed p s).rt = s.rt := rfl
@[simp] theorem streamed_seq (p : List Byte) (s : State) :
    (streamed p s).seq = { phase := .idle, off := p.length, rem := 0 } := rfl
@[simp] theorem streamed_txMadctl (p : List Byte) (s : State) :
    (streamed p s).txMadctl = s.txMadctl := rfl
@[simp] theorem streamed_txColmod (p : List Byte) (s : State) :
    (streamed p s).txColmod = s.txColmod := rfl
@[simp] theorem streamed_csLevel (p : List Byte) (s : State) :
    (streamed p s).csLevel = true := rfl
@[simp] theorem streamed_rstPresent (p : List Byte) (s : State) :
    (streamed p s).rstPresent = s.rstPresent := rfl
@[simp] theorem streamed_rstActive (p : List Byte) (s : State) :
    (streamed p s).rstActive = s.rstActive := rfl
@[simp] theorem streamed_rstLevel (p : List Byte) (s : State) :
    (streamed p s).rstLevel = s.rstLevel := rfl
@[simp] theorem streamed_cfg (p : List Byte) (s : State) :
    (streamed p s).cfg = s.cfg := rfl
@[simp] theorem streamed_port (p : List Byte) (s : State) :
    (streamed p s).port = s.port := rfl
@[simp] theorem streamed_answers (p : List Byte) (s : State) :
    (streamed p s).answers = s.answers.drop (chunkCount p.length + 1) := rfl
@[simp] theorem streamed_asked (p : List Byte) (s : State) :
    (streamed p s).asked = s.asked + (chunkCount p.length + 1) := rfl
@[simp] theorem streamed_trace (p : List Byte) (s : State) :
    (streamed p s).trace = s.trace ++ colorEvents s p := rfl
@[simp] theorem streamed_result (p : List Byte) (s : State) :
    (streamed p s).result = s.result := rfl

end Sys2Proof.Safety
end

