-- ==== Sys2Proof/Laws/Ops.lean ====
section
/-! SUPPORT. What each shared operation does, said once: SUBMIT_COMMAND, the window, the colour stream. -/

namespace Sys2Proof.Machine

open Sys2Proof.Safety

@[simp] theorem answerAt_emit (e : Event) (s : State) (k : Nat) : answerAt (emit e s) k = answerAt s k := rfl
@[simp] theorem answerAt_cs (l : Bool) (s : State) (k : Nat) : answerAt (cs l s) k = answerAt s k := rfl
@[simp] theorem answerAt_setPhase (p : Phase) (s : State) (k : Nat) : answerAt (setPhase p s) k = answerAt s k := rfl

/-- The oracle is asked in order. -/
@[simp] theorem answerAt_ask (s : State) (k : Nat) : answerAt (ask s) k = answerAt s (k + 1) := by
  simp [answerAt, ask, Nat.add_assoc, Nat.add_comm 1 k]

/-- After any operation that used `n` answers, the `k`-th answer is the old `n + k`-th. -/
theorem answerAt_of_drop {s t : State} {n : Nat} (ha : t.answers = s.answers.drop n) (hn : t.asked = s.asked + n)
    (k : Nat) : answerAt t k = answerAt s (n + k) := by
  simp [answerAt, ha, hn, List.getElem?_drop, Nat.add_assoc]

theorem seq_idle_eq {s : State} (h : s.seq.phase = .idle) : { s.seq with phase := Phase.idle } = s.seq := by
  rw [← h]

theorem andThen_error {x : State × Result} {k : Op} (h : x.2.isError = true) : andThen x k = x := by
  simp [andThen, h]

theorem andThen_ok {x : State × Result} {k : Op} (h : x.2.isError = false) : andThen x k = k x.1 := by
  simp [andThen, h]

@[simp] theorem andThen_done (s : State) (k : Op) : andThen (s, .done) k = k s := rfl
@[simp] theorem andThen_ioError (s : State) (st : Nat) (k : Op) : andThen (s, .ioError st) k = (s, .ioError st) := rfl

theorem requireActive_active {op : Op} {s : State} (h : s.life = .active) : requireActive op s = op s := by
  simp [requireActive, h]

theorem requireActive_inactive {op : Op} {s : State} (h : s.life ≠ .active) :
    requireActive op s = (s, .refused .notActive) := by
  simp [requireActive, h]

theorem runOp_idle {op : Op} {s : State} (h : s.seq.phase = .idle) : runOp op s = finish (op s) := by
  simp [runOp, h]

/-- SUBMIT_COMMAND, whatever the bus answers. -/
theorem submitCommand_eq {s : State} (h : Ready s) (c : Byte) (p : List Byte) (hp : p.length ≤ Config.busMax) :
    submitCommand c p s =
      match answerAt s 0 with
      | .ok => (sentCommand c p s, .done)
      | .fail st => (failedCommand c p s, .ioError st) := by
  obtain ⟨ha, hi⟩ := h
  have hs := seq_idle_eq hi
  simp only [submitCommand, requireActive_active ha, if_neg (Nat.not_lt.mpr hp), submit, answerAt_cs, answerAt_setPhase]
  cases answerAt s 0 with
  | ok =>
    rcases p with _ | ⟨m, _ | ⟨m', p⟩⟩ <;>
      simp [noteSent, sentCommand, failedCommand, bracket, setPhase, cs, emit, ask, Config.csAssert, Config.csDeassert,
        hs]
  | fail st =>
    simp [raise, failedCommand, bracket, setPhase, cs, emit, ask, Config.csAssert, Config.csDeassert, hs]

theorem submitCommand_ok {s : State} (h : Ready s) (hb : answerAt s 0 = .ok) (c : Byte) (p : List Byte)
    (hp : p.length ≤ Config.busMax) : submitCommand c p s = (sentCommand c p s, .done) := by
  rw [submitCommand_eq h c p hp, hb]

theorem submitCommand_fail {s : State} {st : Nat} (h : Ready s) (hb : answerAt s 0 = .fail st) (c : Byte)
    (p : List Byte) (hp : p.length ≤ Config.busMax) :
    submitCommand c p s = (failedCommand c p s, .ioError st) := by
  rw [submitCommand_eq h c p hp, hb]

end Sys2Proof.Machine
end

