-- ==== Sys2Proof/Laws/Stream.lean ====
section
/-! SUPPORT. The chunker's sizes and what SUBMIT_COLOR's loop does, said once. -/

namespace Sys2Proof.Machine

open Sys2Proof.Safety

/-! ### The chunker -/

theorem busMax_pos : 0 < Config.busMax := by decide

theorem chunkCount_pos (L : Nat) : 0 < chunkCount L := by simp [chunkCount]

/-- Every chunk before the last is full. -/
theorem full_of_not_last {L k : Nat} (h : k + 1 < chunkCount L) : Config.busMax < L - k * Config.busMax := by
  simp only [chunkCount, Config.busMax] at *
  omega

/-- The last chunk takes what remains. -/
theorem last_takes_rest {L k : Nat} (h : k + 1 = chunkCount L) : L - k * Config.busMax ≤ Config.busMax := by
  simp only [chunkCount, Config.busMax] at *
  omega

@[simp] theorem chunk_length (p : List Byte) (k : Nat) : (chunk p k).length = chunkSize p.length k := by
  simp only [chunk, slice, chunkSize, List.length_take, List.length_drop]
  omega

/-! ### One trip and the loop -/

/-- The events of the chunks from `k` on. -/
def chunkEvents (p : List Byte) (k n : Nat) : List Event :=
  (List.range' k n).map fun j => .tx (dataFrame (chunk p j))

theorem sendChunk_ok {s : State} (hb : answerAt s 0 = .ok) (d : List Byte) :
    sendChunk d s =
      (if s.seq.rem - d.length = 0 then
        { s with
          trace := s.trace ++ [.tx (dataFrame d), .cs true], csLevel := true
          seq := { phase := .idle, off := s.seq.off + d.length, rem := 0 }
          answers := s.answers.tail, asked := s.asked + 1 }
      else
        { s with
          trace := s.trace ++ [.tx (dataFrame d)]
          seq := { s.seq with off := s.seq.off + d.length, rem := s.seq.rem - d.length }
          answers := s.answers.tail, asked := s.asked + 1 }, .done) := by
  simp only [sendChunk, submit, hb]
  split_ifs with h <;> simp_all [setPhase, cs, emit, ask, Config.csDeassert]

theorem sendChunk_fail {s : State} {st : Nat} (hb : answerAt s 0 = .fail st) (hc : s.csLevel = false) (d : List Byte) :
    sendChunk d s =
      ({ s with
          trace := s.trace ++ [.tx (dataFrame d), .cs true], csLevel := true
          seq := { s.seq with phase := .idle }
          answers := s.answers.tail, asked := s.asked + 1 }, .ioError st) := by
  simp [sendChunk, submit, hb, raise, hc, setPhase, cs, emit, ask, Config.csDeassert]

/-- The loop from chunk `k` on, when the bus takes every frame. -/
theorem streamLoop_ok (p : List Byte) (n : Nat) : ∀ (k : Nat) (s : State), k + n = chunkCount p.length → 0 < n →
    s.seq = { phase := .chunk, off := k * Config.busMax, rem := p.length - k * Config.busMax } → BusOk s n →
    streamLoop p n s =
      ({ s with
          trace := s.trace ++ chunkEvents p k n ++ [.cs true], csLevel := true
          seq := { phase := .idle, off := p.length, rem := 0 }
          answers := s.answers.drop n, asked := s.asked + n }, .done) := by
  induction n with
  | zero => intro k s _ h; exact absurd h (lt_irrefl 0)
  | succ n ih =>
    intro k s hk _ hs hb
    have hd : slice p s.seq.off (min Config.busMax s.seq.rem) = chunk p k := by simp [hs, chunk, chunkSize]
    have hlen : (chunk p k).length = min Config.busMax (p.length - k * Config.busMax) := by simp [chunkSize]
    rw [streamLoop, hd, sendChunk_ok (hb 0 (Nat.succ_pos n))]
    rcases Nat.eq_zero_or_pos n with rfl | hn
    · have hr := last_takes_rest hk
      have h0 : s.seq.rem - (chunk p k).length = 0 := by rw [hlen, hs]; simp; omega
      have hoff : k * Config.busMax + (chunk p k).length = p.length := by
        rw [hlen, Nat.min_eq_right hr]
        have : k * Config.busMax ≤ p.length := by
          have hk' : k < chunkCount p.length := by omega
          simp only [chunkCount, Config.busMax] at *
          omega
        omega
      rw [if_pos h0]
      simpa [hs, chunkEvents] using hoff
    · have hf := full_of_not_last (L := p.length) (k := k) (by omega)
      have hl : (chunk p k).length = Config.busMax := by rw [hlen]; omega
      have h0 : ¬ (s.seq.rem - (chunk p k).length = 0) := by rw [hl, hs]; simp; omega
      simp only [if_neg h0, andThen_done]
      rw [ih (k + 1) _ (by omega) hn (by simp [hs, hl, Nat.add_mul]; omega)]
      · simp [chunkEvents, List.range'_succ, Nat.add_assoc, Nat.add_comm 1 n]
      · intro j hj
        have := hb (j + 1) (by omega)
        simpa [answerAt, Nat.add_assoc, Nat.add_comm 1 j] using this

/-- The chunks of a payload, as the events the loop sends. -/
theorem chunkEvents_all (p : List Byte) :
    chunkEvents p 0 (chunkCount p.length) = (chunks p).map (fun d => .tx (dataFrame d)) := by
  simp [chunkEvents, chunks, List.range_eq_range']

theorem openColor_ok {s : State} (h : s.life = .active) (hb : answerAt s 0 = .ok) (len : Nat) :
    openColor len s =
      ({ s with
          trace := s.trace ++ [.cs false, .tx (primingFrame s.cfg s.bus.addrBits)], csLevel := false
          seq := { phase := .chunk, off := 0, rem := len }
          answers := s.answers.tail, asked := s.asked + 1 }, .done) := by
  simp only [openColor, requireActive_active h, submit, answerAt_setPhase, answerAt_cs, hb]
  simp [setPhase, cs, emit, ask, Config.csAssert]

theorem openColor_fail {s : State} {st : Nat} (h : Ready s) (hb : answerAt s 0 = .fail st) (len : Nat) :
    openColor len s =
      ({ s with
          trace := s.trace ++ bracket (primingFrame s.cfg s.bus.addrBits), csLevel := true
          answers := s.answers.tail, asked := s.asked + 1 }, .ioError st) := by
  have hs := seq_idle_eq h.2
  simp only [openColor, requireActive_active h.1, submit, answerAt_setPhase, answerAt_cs, hb]
  simp [raise, bracket, setPhase, cs, emit, ask, Config.csAssert, Config.csDeassert, hs]

/-- SUBMIT_COLOR, when the bus takes every frame. -/
theorem submitColor_ok {s : State} (h : s.life = .active) (p : List Byte)
    (hb : BusOk s (chunkCount p.length + 1)) : submitColor p s = (streamed p s, .done) := by
  rw [submitColor, openColor_ok h (hb 0 (by omega))]
  simp only [andThen_done]
  rw [streamLoop_ok p _ 0 _ (by simp) (chunkCount_pos _) (by simp)]
  · rw [chunkEvents_all]
    simp [streamed, colorEvents]
    omega
  · intro k hk
    have := hb (k + 1) (by omega)
    simpa [answerAt, Nat.add_assoc, Nat.add_comm 1 k] using this

end Sys2Proof.Machine
end

