-- ==== Sys2Proof/Laws/Draw.lean ====
section
/-! SUPPORT. What the window and the drawing pattern do, said once. -/

namespace Sys2Proof.Machine

open Sys2Proof.Safety

@[simp] theorem coord4_length (P : Params) (a b : Half) : (coord4 P a b).length = 4 := rfl
@[simp] theorem be16_length (v : Half) : (be16 v).length = 2 := rfl

theorem answerAt_sentCommand (c : Byte) (p : List Byte) (s : State) (k : Nat) :
    answerAt (sentCommand c p s) k = answerAt s (k + 1) := by
  simp [answerAt, Nat.add_assoc, Nat.add_comm 1 k]

theorem ready_sentCommand {c : Byte} {p : List Byte} {s : State} (h : Ready s) : Ready (sentCommand c p s) :=
  ⟨by simpa using h.1, by simpa using h.2⟩

/-- SET_WINDOW with a window that passes the check, when the bus takes both frames. -/
theorem setWindow_ok {s : State} (h : Ready s) {x0 y0 x1 y1 : Int}
    (hw : windowOk s.width s.height x0 y0 x1 y1 = true) (hb : BusOk s 2) :
    setWindow x0 y0 x1 y1 s = (sentWindow x0 y0 x1 y1 s, .done) := by
  rw [setWindow, requireActive_active h.1, if_pos hw,
    submitCommand_ok h (hb 0 (by decide)) _ _ (by simp [Config.busMax])]
  simp only [andThen_done]
  rw [submitCommand_ok (ready_sentCommand h) (by rw [answerAt_sentCommand]; exact hb 1 (by decide)) _ _
    (by simp [Config.busMax])]
  rfl

/-- SET_WINDOW with a window that fails the check. -/
theorem setWindow_dropped {s : State} (h : s.life = .active) {x0 y0 x1 y1 : Int}
    (hw : windowOk s.width s.height x0 y0 x1 y1 = false) : setWindow x0 y0 x1 y1 s = (s, .dropped) := by
  simp [setWindow, requireActive_active h, hw]

theorem answerAt_sentWindow (x0 y0 x1 y1 : Int) (s : State) (k : Nat) :
    answerAt (sentWindow x0 y0 x1 y1 s) k = answerAt s (k + 2) := by
  simp [answerAt, Nat.add_assoc, Nat.add_comm 2 k]

/-- The check of SET_WINDOW is `Inside`. -/
theorem windowOk_iff {s : State} {x0 y0 x1 y1 : Int} :
    windowOk s.width s.height x0 y0 x1 y1 = true ↔ Inside s x0 y0 x1 y1 := decide_eq_true_iff

/-- `draw`, when the bus takes every frame it submits. -/
theorem draw_frames {s : State} (h : Ready s) (d : Draw) (hb : BusOk s (d.frames s)) :
    draw d.x0 d.y0 d.x1 d.y1 d.p s = drawn d.x0 d.y0 d.x1 d.y1 d.p s := by
  unfold Draw.frames at hb
  unfold drawn
  split_ifs at hb ⊢ with hw hs
  · have hc : BusOk (sentWindow d.x0 d.y0 d.x1 d.y1 s) (chunkCount d.p.length + 1) := by
      intro k hk
      rw [answerAt_sentWindow]
      exact hb _ (by omega)
    simp only [draw, setWindow_ok h (windowOk_iff.mpr hw) fun k hk => hb k (by omega)]
    rw [submitColor_ok (by simpa using h.1) d.p hc]
    simp [Result.isError]
  · simp only [draw, setWindow_dropped h.1 (Bool.eq_false_iff.mpr (windowOk_iff.not.mpr hw))]
    simp [Result.isError, hs]
  · simp only [draw, setWindow_dropped h.1 (Bool.eq_false_iff.mpr (windowOk_iff.not.mpr hw))]
    rw [submitColor_ok h.1 d.p hb]
    simp [Result.isError, hs]

theorem frames_le (d : Draw) (s : State) : d.frames s ≤ drawAsks d.p := by
  unfold Draw.frames drawAsks
  split_ifs <;> omega

/-- `draw`, when the bus takes every frame. -/
theorem draw_ok {s : State} (h : Ready s) (x0 y0 x1 y1 : Int) (p : List Byte) (hb : BusOk s (drawAsks p)) :
    draw x0 y0 x1 y1 p s = drawn x0 y0 x1 y1 p s :=
  draw_frames h ⟨x0, y0, x1, y1, p⟩ fun k hk => hb k (lt_of_lt_of_le hk (frames_le _ s))

/-- What `drawn` leaves alone: everything but `win`, the ghosts, chip-select, the sequencer, the trace and the oracle. -/
theorem drawn_frame (x0 y0 x1 y1 : Int) (p : List Byte) (s : State) :
    (drawn x0 y0 x1 y1 p s).1.width = s.width ∧ (drawn x0 y0 x1 y1 p s).1.height = s.height ∧
      (drawn x0 y0 x1 y1 p s).1.cfg = s.cfg ∧ (drawn x0 y0 x1 y1 p s).1.life = s.life := by
  unfold drawn
  split_ifs <;> simp

theorem ready_drawn {x0 y0 x1 y1 : Int} {p : List Byte} {s : State} (h : Ready s) :
    Ready (drawn x0 y0 x1 y1 p s).1 := by
  unfold drawn
  split_ifs
  · exact ⟨by simpa using h.1, by simp⟩
  · exact h
  · exact ⟨by simpa using h.1, by simp⟩

/-- `draw` uses one answer for each frame. -/
theorem drawn_answers (d : Draw) (s : State) (k : Nat) :
    answerAt (drawn d.x0 d.y0 d.x1 d.y1 d.p s).1 k = answerAt s (d.frames s + k) := by
  unfold Draw.frames drawn
  split_ifs
  · refine answerAt_of_drop ?_ ?_ k
    · simp only [streamed_answers, sentWindow_answers, List.drop_drop]
      congr 1
      omega
    · simp only [streamed_asked, sentWindow_asked]
      omega
  · rw [Nat.zero_add]
  · exact answerAt_of_drop (by simp) (by simp) k

/-- `draw` uses at most `drawAsks` answers. -/
theorem drawn_asks (x0 y0 x1 y1 : Int) (p : List Byte) (s : State) :
    ∃ n, n ≤ drawAsks p ∧ ∀ k, answerAt (drawn x0 y0 x1 y1 p s).1 k = answerAt s (n + k) :=
  ⟨_, frames_le ⟨x0, y0, x1, y1, p⟩ s, drawn_answers ⟨x0, y0, x1, y1, p⟩ s⟩

@[simp] theorem rep_length (p : List Byte) (n : Nat) : (rep p n).length = n * p.length := by
  simp [rep]

theorem rep_one (p : List Byte) : rep p 1 = p := by simp [rep]

@[simp] theorem col2_length (P : Params) (c : Half) : (col2 P c).length = 2 := by
  unfold col2; split <;> rfl

/-- PIXEL, when the bus takes every frame. -/
theorem pixel_ok {s : State} (h : Ready s) (x y : Int) (c : Half) (hb : BusOk s 4) :
    pixel x y c s = drawn x y x y (col2 s.cfg c) s := by
  rw [pixel, requireActive_active h.1]
  exact draw_ok h _ _ _ _ _ (by simpa [drawAsks, chunkCount, Config.busMax] using hb)

/-! ### Lines -/

theorem hlineDrawn_eq (x y w : Int) (c : Half) (s : State) :
    hlineDrawn x y w c s =
      if clip x w (int s.width) = 0 then (s, .dropped)
      else drawn x y (x + clip x w (int s.width) - 1) y (rep (col2 s.cfg c) (clip x w (int s.width)).toNat) s := by
  show drawnIf (if clip x w (int s.width) = 0 then _ else _) s = _
  split_ifs <;> rfl

theorem vlineDrawn_eq (x y h : Int) (c : Half) (s : State) :
    vlineDrawn x y h c s =
      if clip y h (int s.height) = 0 then (s, .dropped)
      else drawn x y x (y + clip y h (int s.height) - 1) (rep (col2 s.cfg c) (clip y h (int s.height)).toNat) s := by
  show drawnIf (if clip y h (int s.height) = 0 then _ else _) s = _
  split_ifs <;> rfl

/-- A call of `draw` as an operation; without a call the operation is dropped. -/
def drawIf (d : Option Draw) : Op := fun s =>
  match d with
  | none => (s, .dropped)
  | some d => draw d.x0 d.y0 d.x1 d.y1 d.p s

/-- HLINE makes its one call of `draw`, whatever the bus answers: its one-pixel case is the general case. -/
theorem hline_draw {s : State} (h : s.life = .active) (x y w : Int) (c : Half) :
    hline x y w c s = drawIf (rowDraw x y w c s) s := by
  simp only [hline, requireActive_active h]
  show (if clip x w (int s.width) = 0 then _ else _) = drawIf (if clip x w (int s.width) = 0 then _ else _) s
  split_ifs with h0 h1
  · rfl
  · have e : (if (s.width.toNat : Int) ≤ x then 0 else min w (s.width.toNat - x)) = 1 := h1
    simp [pixel, requireActive_active h, drawIf, pixels, cut, e]
  · rfl

/-- VLINE makes its one call of `draw`, whatever the bus answers: its one-pixel case is the general case. -/
theorem vline_draw {s : State} (h : s.life = .active) (x y l : Int) (c : Half) :
    vline x y l c s = drawIf (columnDraw x y l c s) s := by
  simp only [vline, requireActive_active h]
  show (if clip y l (int s.height) = 0 then _ else _) = drawIf (if clip y l (int s.height) = 0 then _ else _) s
  split_ifs with h0 h1
  · rfl
  · have e : (if (s.height.toNat : Int) ≤ y then 0 else min l (s.height.toNat - y)) = 1 := h1
    simp [pixel, requireActive_active h, drawIf, pixels, cut, e]
  · rfl

/-- A call, when the bus takes every frame. -/
theorem drawIf_ok {s : State} (h : Ready s) (d : Option Draw) (hb : ∀ e, d = some e → BusOk s (drawAsks e.p)) :
    drawIf d s = drawnIf d s := by
  cases d with
  | none => rfl
  | some e => exact draw_ok h _ _ _ _ _ (hb e rfl)

/-- HLINE, when the bus takes every frame. -/
theorem hline_ok {s : State} (h : Ready s) (x y w : Int) (c : Half)
    (hb : BusOk s (drawAsks (rep (col2 s.cfg c) (clip x w (int s.width)).toNat))) :
    hline x y w c s = hlineDrawn x y w c s := by
  rw [hline_draw h.1, hlineDrawn, drawIf_ok h]
  intro e he
  unfold rowDraw at he
  split_ifs at he
  obtain rfl := Option.some.inj he
  exact hb

/-- VLINE, when the bus takes every frame. -/
theorem vline_ok {s : State} (h : Ready s) (x y l : Int) (c : Half)
    (hb : BusOk s (drawAsks (rep (col2 s.cfg c) (clip y l (int s.height)).toNat))) :
    vline x y l c s = vlineDrawn x y l c s := by
  rw [vline_draw h.1, vlineDrawn, drawIf_ok h]
  intro e he
  unfold columnDraw at he
  split_ifs at he
  obtain rfl := Option.some.inj he
  exact hb

end Sys2Proof.Machine
end

