-- ==== Sys2Proof/Laws/Frame.lean ====
section
/-! SUPPORT. Frames: what each shared operation leaves alone, whatever the bus answers and whatever its result. -/

namespace Sys2Proof.Machine

open Sys2Proof.Safety

/-! ### Three kinds of change -/

/-- `t` is `s` after pixel data: the trace has grown; chip-select, the sequencer and the oracle may differ. -/
def Streams (s t : State) : Prop :=
  ∃ es l q a n, t = { s with trace := s.trace ++ es, csLevel := l, seq := q, answers := a, asked := n }

/-- `t` is `s` after frames: as `Streams`, and the ghosts may differ. -/
def Transmits (s t : State) : Prop :=
  ∃ es l q a n tm tc,
    t = { s with
          trace := s.trace ++ es, csLevel := l, seq := q, answers := a, asked := n, txMadctl := tm, txColmod := tc }

/-- `t` is `s` after drawing: as `Streams`, and the window may differ. -/
def Draws (s t : State) : Prop :=
  ∃ es l q a n w,
    t = { s with trace := s.trace ++ es, csLevel := l, seq := q, answers := a, asked := n, win := w }

theorem Streams.of {s t : State} (es : List Event)
    (h : t = { s with trace := s.trace ++ es, csLevel := t.csLevel, seq := t.seq, answers := t.answers
                      asked := t.asked }) : Streams s t :=
  ⟨es, t.csLevel, t.seq, t.answers, t.asked, h⟩

theorem Draws.ofWindow (w : Option Window) (s : State) : Draws s { s with win := w } :=
  ⟨[], s.csLevel, s.seq, s.answers, s.asked, w, by simp⟩

theorem Streams.refl (s : State) : Streams s s := ⟨[], s.csLevel, s.seq, s.answers, s.asked, by simp⟩

theorem Streams.trans {s t u : State} (h : Streams s t) (h' : Streams t u) : Streams s u := by
  obtain ⟨es, l, q, a, n, rfl⟩ := h
  obtain ⟨es', l', q', a', n', rfl⟩ := h'
  exact ⟨es ++ es', l', q', a', n', by simp⟩

theorem Streams.transmits {s t : State} (h : Streams s t) : Transmits s t := by
  obtain ⟨es, l, q, a, n, rfl⟩ := h
  exact ⟨es, l, q, a, n, s.txMadctl, s.txColmod, rfl⟩

theorem Transmits.refl (s : State) : Transmits s s := (Streams.refl s).transmits

theorem Transmits.trans {s t u : State} (h : Transmits s t) (h' : Transmits t u) : Transmits s u := by
  obtain ⟨es, l, q, a, n, tm, tc, rfl⟩ := h
  obtain ⟨es', l', q', a', n', tm', tc', rfl⟩ := h'
  exact ⟨es ++ es', l', q', a', n', tm', tc', by simp⟩

theorem Streams.draws {s t : State} (h : Streams s t) : Draws s t := by
  obtain ⟨es, l, q, a, n, rfl⟩ := h
  exact ⟨es, l, q, a, n, s.win, rfl⟩

theorem Draws.refl (s : State) : Draws s s := (Streams.refl s).draws

theorem Draws.trans {s t u : State} (h : Draws s t) (h' : Draws t u) : Draws s u := by
  obtain ⟨es, l, q, a, n, w, rfl⟩ := h
  obtain ⟨es', l', q', a', n', w', rfl⟩ := h'
  exact ⟨es ++ es', l', q', a', n', w', by simp⟩

/-! ### The combinators -/

/-- A property of an operation's end state that a second operation extends. -/
theorem andThen_rel {R : State → State → Prop} (trans : ∀ a b c, R a b → R b c → R a c) {s : State}
    {x : State × Result} {k : Op} (h : R s x.1) (hk : ∀ t, R t (k t).1) : R s (andThen x k).1 := by
  unfold andThen
  split_ifs
  · exact h
  · exact trans _ _ _ h (hk _)

theorem requireActive_rel {R : State → State → Prop} (refl : ∀ a, R a a) {op : Op} (h : ∀ s, R s (op s).1)
    (s : State) : R s (requireActive op s).1 := by
  unfold requireActive
  split_ifs
  · exact h s
  · exact refl s

theorem runAll_rel {R : State → State → Prop} (refl : ∀ a, R a a) (trans : ∀ a b c, R a b → R b c → R a c)
    (ops : List Op) (h : ∀ op ∈ ops, ∀ s, R s (op s).1) (s : State) : R s (runAll ops s).1 := by
  induction ops generalizing s with
  | nil => exact refl s
  | cons op rest ih =>
    exact andThen_rel trans (h op (by simp) s) fun t => ih (fun o ho => h o (by simp [ho])) t

/-! ### The transport -/

theorem raise_streams (r : Result) (s : State) : Streams s (raise r s).1 := by
  unfold raise
  split_ifs
  · exact Streams.of [] (by simp [setPhase])
  · exact Streams.of [.cs true] rfl

theorem noteSent_transmits (c : Byte) (p : List Byte) (s : State) : Transmits s (noteSent c p s) := by
  rcases p with _ | ⟨m, _ | ⟨m', p⟩⟩
  · exact Transmits.refl s
  · exact ⟨[], s.csLevel, s.seq, s.answers, s.asked, _, _, by simp [noteSent]; exact ⟨rfl, rfl⟩⟩
  · exact Transmits.refl s

/-- A frame of no mirrored register leaves the ghosts alone. -/
theorem noteSent_id {c : Byte} {p : List Byte} {s : State}
    (h : p.length ≠ 1 ∨ (c ≠ s.cfg.opMadctl ∧ c ≠ s.cfg.opColmod)) : noteSent c p s = s := by
  rcases p with _ | ⟨m, _ | ⟨m', p⟩⟩
  · rfl
  · obtain ⟨h1, h2⟩ := h.resolve_left (by simp)
    simp [noteSent, h1, h2]
  · rfl

/-- SUBMIT_COMMAND: chip-select, the sequencer and the trace change, and then the ghosts by `noteSent`. -/
theorem submitCommand_noted (c : Byte) (p : List Byte) (s : State) :
    ∃ t, Streams s t ∧ ((submitCommand c p s).1 = t ∨ (submitCommand c p s).1 = noteSent c p t) := by
  unfold submitCommand requireActive
  split_ifs
  · exact ⟨s, Streams.refl s, Or.inl rfl⟩
  · have h : Streams s
        (emit (.tx (commandFrame s.cfg s.bus.addrBits c p)) (ask (cs Config.csAssert (setPhase .cmd s)))) :=
      Streams.of [.cs false, .tx (commandFrame s.cfg s.bus.addrBits c p)]
        (by simp [emit, ask, cs, setPhase, Config.csAssert])
    simp only [submit]
    cases answerAt (cs Config.csAssert (setPhase .cmd s)) 0 with
    | fail st => exact ⟨_, h.trans (raise_streams _ _), Or.inl rfl⟩
    | ok => exact ⟨_, h.trans (Streams.of [.cs true] rfl), Or.inr rfl⟩
  · exact ⟨s, Streams.refl s, Or.inl rfl⟩

/-- SUBMIT_COMMAND: only the ghosts, chip-select, the sequencer, the oracle and the trace change. -/
theorem submitCommand_transmits (c : Byte) (p : List Byte) (s : State) : Transmits s (submitCommand c p s).1 := by
  obtain ⟨t, h, e | e⟩ := submitCommand_noted c p s <;> rw [e]
  · exact h.transmits
  · exact h.transmits.trans (noteSent_transmits c p t)

theorem Streams.cfg_eq {s t : State} (h : Streams s t) : t.cfg = s.cfg := by
  obtain ⟨es, l, q, a, n, rfl⟩ := h
  rfl

/-- SUBMIT_COMMAND of a frame of no mirrored register: not even the ghosts change. -/
theorem submitCommand_streams {c : Byte} {p : List Byte} {s : State}
    (hg : p.length ≠ 1 ∨ (c ≠ s.cfg.opMadctl ∧ c ≠ s.cfg.opColmod)) : Streams s (submitCommand c p s).1 := by
  obtain ⟨t, h, e | e⟩ := submitCommand_noted c p s <;> rw [e]
  · exact h
  · rwa [noteSent_id (by rwa [h.cfg_eq])]

theorem openColor_streams (len : Nat) (s : State) : Streams s (openColor len s).1 := by
  refine requireActive_rel (R := Streams) Streams.refl (fun s => ?_) s
  have h : Streams s (emit (.tx (primingFrame s.cfg s.bus.addrBits)) (ask (setPhase .prime (cs Config.csAssert s)))) :=
    Streams.of [.cs false, .tx (primingFrame s.cfg s.bus.addrBits)] (by simp [emit, ask, cs, setPhase, Config.csAssert])
  simp only [submit]
  cases answerAt (setPhase .prime (cs Config.csAssert s)) 0 with
  | fail st => exact h.trans (raise_streams _ _)
  | ok => exact h.trans (Streams.of [] (by simp))

theorem sendChunk_streams (d : List Byte) (s : State) : Streams s (sendChunk d s).1 := by
  have h : Streams s (emit (.tx (dataFrame d)) (ask s)) := Streams.of [.tx _] rfl
  simp only [sendChunk, submit]
  cases answerAt s 0 with
  | fail st => exact h.trans (raise_streams _ _)
  | ok =>
    dsimp only
    split_ifs
    · exact h.trans (Streams.of [.cs true] rfl)
    · exact h.trans (Streams.of [] (by simp))

theorem streamLoop_streams (p : List Byte) (n : Nat) (s : State) : Streams s (streamLoop p n s).1 := by
  induction n generalizing s with
  | zero => exact Streams.refl s
  | succ n ih =>
    refine andThen_rel (R := Streams) (fun _ _ _ => Streams.trans) (sendChunk_streams _ s) fun t => ?_
    split_ifs
    · exact Streams.refl t
    · exact ih t

/-- SUBMIT_COLOR: not even the ghosts change. -/
theorem submitColor_streams (p : List Byte) (s : State) : Streams s (submitColor p s).1 :=
  andThen_rel (R := Streams) (fun _ _ _ => Streams.trans) (openColor_streams _ s) (streamLoop_streams p _)

/-! ### Drawing -/

theorem setWindow_draws (x0 y0 x1 y1 : Int) (s : State) : Draws s (setWindow x0 y0 x1 y1 s).1 := by
  refine requireActive_rel (R := Draws) Draws.refl (fun s => ?_) s
  split_ifs
  · refine andThen_rel (R := Draws) (fun _ _ _ => Draws.trans)
      (submitCommand_streams (Or.inl (by simp))).draws fun t => ?_
    dsimp only
    split_ifs
    · exact (submitCommand_streams (s := t) (Or.inl (by simp))).draws.trans (Draws.ofWindow _ _)
    · exact (submitCommand_streams (s := t) (Or.inl (by simp))).draws.trans (Draws.ofWindow _ _)
  · exact Draws.refl s

/-- `draw`: beyond what a transmission changes, only the window. -/
theorem draw_draws (x0 y0 x1 y1 : Int) (p : List Byte) (s : State) : Draws s (draw x0 y0 x1 y1 p s).1 := by
  simp only [draw]
  split_ifs
  · exact setWindow_draws ..
  · exact setWindow_draws ..
  · refine andThen_rel (R := Draws) (fun _ _ _ => Draws.trans) ?_ fun t => Draws.refl t
    exact (setWindow_draws ..).trans (submitColor_streams ..).draws

theorem pixel_draws (x y : Int) (c : Half) (s : State) : Draws s (pixel x y c s).1 :=
  requireActive_rel (R := Draws) Draws.refl (fun _ => draw_draws ..) s

theorem fill_draws (c : Half) (s : State) : Draws s (fill c s).1 := by
  refine requireActive_rel (R := Draws) Draws.refl (fun s => ?_) s
  split_ifs
  · exact Draws.refl s
  · exact draw_draws ..

theorem fillRect_draws (x y w h : Int) (c : Half) (s : State) : Draws s (fillRect x y w h c s).1 := by
  refine requireActive_rel (R := Draws) Draws.refl (fun s => ?_) s
  dsimp only
  split_ifs
  · exact Draws.refl s
  · exact draw_draws ..

theorem hline_draws (x y w : Int) (c : Half) (s : State) : Draws s (hline x y w c s).1 := by
  refine requireActive_rel (R := Draws) Draws.refl (fun s => ?_) s
  dsimp only
  split_ifs
  · exact Draws.refl s
  · exact pixel_draws ..
  · exact draw_draws ..

theorem vline_draws (x y l : Int) (c : Half) (s : State) : Draws s (vline x y l c s).1 := by
  refine requireActive_rel (R := Draws) Draws.refl (fun s => ?_) s
  dsimp only
  split_ifs
  · exact Draws.refl s
  · exact pixel_draws ..
  · exact draw_draws ..

theorem bitmap_draws (x0 y0 x1 y1 : Half) (buf : List Byte) (s : State) : Draws s (bitmap x0 y0 x1 y1 buf s).1 := by
  refine requireActive_rel (R := Draws) Draws.refl (fun s => ?_) s
  split_ifs
  · exact Draws.refl s
  · split
    · exact Draws.refl s
    · exact draw_draws ..

theorem rect_draws (x y w h : Half) (c : Half) (s : State) : Draws s (rect x y w h c s).1 := by
  refine requireActive_rel (R := Draws) Draws.refl (fun s => ?_) s
  split_ifs
  · exact Draws.refl s
  · refine runAll_rel (R := Draws) Draws.refl (fun _ _ _ => Draws.trans) _ ?_ s
    simp only [List.mem_cons, List.not_mem_nil, or_false]
    rintro op (rfl | rfl | rfl | rfl) t
    · exact hline_draws ..
    · exact hline_draws ..
    · exact vline_draws ..
    · exact vline_draws ..

theorem circle_draws (xm ym r : Int) (c : Half) (s : State) : Draws s (circle xm ym r c s).1 := by
  refine requireActive_rel (R := Draws) Draws.refl (fun s => ?_) s
  split_ifs
  · exact Draws.refl s
  · refine runAll_rel (R := Draws) Draws.refl (fun _ _ _ => Draws.trans) _ ?_ s
    simp only [List.mem_map]
    rintro op ⟨q, _, rfl⟩ t
    exact pixel_draws ..

theorem fillCircle_draws (xm ym r : Int) (c : Half) (s : State) : Draws s (fillCircle xm ym r c s).1 := by
  refine requireActive_rel (R := Draws) Draws.refl (fun s => ?_) s
  split_ifs
  · exact Draws.refl s
  · refine runAll_rel (R := Draws) Draws.refl (fun _ _ _ => Draws.trans) _ ?_ s
    simp only [List.mem_map]
    rintro op ⟨q, _, rfl⟩ t
    exact vline_draws ..

end Sys2Proof.Machine
end

