-- ==== Sys2Proof/Laws/Lifecycle.lean ====
section
/-! SUPPORT. What the parts of CONSTRUCT, of INIT and of RESET do, said once. -/

namespace Sys2Proof.Machine

/-- `establish_table` writes the table, and warns unless the geometry is the special one. -/
theorem establishTable_eq (s : State) :
    establishTable s =
      { s with
        rt := if specialGeometry s.cfg then s.cfg.vendorRotTable else genericTable s.cfg
        trace := s.trace ++ (if specialGeometry s.cfg then [] else [.warn .unknownGeometry]) } := by
  unfold establishTable
  split_ifs <;> simp [warn, emit]

@[simp] theorem establishTable_cfg (s : State) : (establishTable s).cfg = s.cfg := by rw [establishTable_eq]

@[simp] theorem establishTable_answers (s : State) : (establishTable s).answers = s.answers := by
  rw [establishTable_eq]

@[simp] theorem establishTable_asked (s : State) : (establishTable s).asked = s.asked := by rw [establishTable_eq]

@[simp] theorem establishTable_trace (s : State) :
    (establishTable s).trace =
      s.trace ++ (if specialGeometry s.cfg then [] else [.warn .unknownGeometry]) := by
  rw [establishTable_eq]

@[simp] theorem establishTable_toQpc (s : State) :
    (establishTable s).toQpc =
      { s.toQpc with rt := if specialGeometry s.cfg then s.cfg.vendorRotTable else genericTable s.cfg } := by
  rw [establishTable_eq]

/-- What a failed CONSTRUCT puts back: every register, with the object not created. -/
@[simp] theorem undoConstruct_toQpc (before s : State) :
    (undoConstruct before s).toQpc = { before.toQpc with life := .unbound, busClaimed := false } := rfl

@[simp] theorem undoConstruct_trace (before s : State) :
    (undoConstruct before s).trace = s.trace ++ [.release] := rfl

@[simp] theorem undoConstruct_cfg (before s : State) : (undoConstruct before s).cfg = s.cfg := rfl

/-! ### Lists of steps: INIT and the software reset -/

theorem initStep_transmits (a : InitStep) (s : State) : Transmits s (initStep a s).1 := by
  cases a with
  | frame c p => exact submitCommand_transmits c p s
  | sendColmod => exact submitCommand_transmits _ _ s
  | sendMadctl => exact submitCommand_transmits _ _ s
  | delay n => exact (Streams.of [.delay n] rfl).transmits

/-- A list of steps changes what transmissions change. -/
theorem runSteps_transmits (steps : List InitStep) (s : State) : Transmits s (runAll (steps.map initStep) s).1 := by
  refine runAll_rel Transmits.refl (fun _ _ _ => Transmits.trans) _ (fun op h u => ?_) s
  obtain ⟨a, -, rfl⟩ := List.mem_map.mp h
  exact initStep_transmits a u

theorem resetWithoutPin_transmits (s : State) : Transmits s (resetWithoutPin s).1 := by
  unfold resetWithoutPin
  split
  · exact Transmits.refl s
  · exact runSteps_transmits _ s

/-- Everything RESET can do on an ACTIVE object: the pulse and then the forgetting; or, without a pin, what stands in
the pulse's place, and the forgetting unless that ended in an error. -/
theorem resetPanel_cases {s : State} (h : s.life = .active) :
    (s.rstPresent = true ∧
        resetPanel s = ({ resetPulse s with win := none, txMadctl := none, txColmod := none }, .done)) ∨
      (s.rstPresent = false ∧ ((resetWithoutPin s).2.isError = true ∧ resetPanel s = resetWithoutPin s ∨
        (resetWithoutPin s).2.isError = false ∧
          resetPanel s = ({ (resetWithoutPin s).1 with win := none, txMadctl := none, txColmod := none }, .done))) := by
  rw [resetPanel, requireActive_active h]
  cases hp : s.rstPresent with
  | true => exact Or.inl ⟨rfl, rfl⟩
  | false =>
    refine Or.inr ⟨rfl, ?_⟩
    cases he : (resetWithoutPin s).2.isError with
    | true => exact Or.inl ⟨rfl, andThen_error he⟩
    | false => exact Or.inr ⟨rfl, andThen_ok he⟩

end Sys2Proof.Machine
end

