-- ==== Sys2Proof/Laws/PerInstr.lean ====
section
/-! SUPPORT. What the host's case split over all instructions needs: a family of statements about the instruction as
syntax, one lemma per constructor. -/

namespace Sys2Proof.Laws

/-- The selectors of 30_encoding.md R99. -/
def selectors : List Nat :=
  [0x00, 0x01, 0x08, 0x09, 0x0A, 0x0B, 0x0C, 0x0D, 0x0E, 0x0F, 0x10, 0x11, 0x12, 0x13, 0x14, 0x15, 0x16, 0x17, 0x18,
   0x19, 0x1A, 0x20, 0x21, 0x22, 0x23, 0x24, 0x25, 0x28, 0x29, 0x2A, 0x30, 0x31, 0x32, 0x33]

/-- A port item of an instruction: a request with a selector of the table, or a frame of one of the three shapes and no
others (30_encoding.md R90, R99); only a priming frame is followed by pixel bytes. -/
def ShapeOk (P : Params) : PortItem → Prop
  | .request op _ => op.toNat ∈ selectors
  | .frame t follow =>
    (∃ c ∈ P.opcodes, ∃ p : List Byte, p.length ≤ 6 ∧ t = commandFrame P P.addrBits c p ∧ follow = 0) ∨
      t = primingFrame P P.addrBits ∨ (∃ d, t = dataFrame d ∧ follow = 0)

/-- Every instruction is encoded as a request of the table or as one of the three frames. -/
def EncodeShape.Statement (i : Instr) : Prop := ∀ P : Params, ShapeOk P (encode P i)

theorem shape_command {P : Params} {c : Byte} (hc : c ∈ P.opcodes) {p : List Byte} (hp : p.length ≤ 6) :
    ShapeOk P (commandItem P c p) := Or.inl ⟨c, hc, p, hp, rfl, rfl⟩

theorem EncodeShape.submitCommand (cmd : Byte) (p : List Byte) :
    EncodeShape.Statement (.submitCommand cmd p) := fun _ => by simp [encode, ShapeOk, selectors]

theorem EncodeShape.submitColor (p : List Byte) :
    EncodeShape.Statement (.submitColor p) := fun _ => by simp [encode, ShapeOk, selectors]

theorem EncodeShape.setRotation (i : BitVec 2) :
    EncodeShape.Statement (.setRotation i) := fun _ => by simp [encode, ShapeOk, selectors]

theorem EncodeShape.setRotationTable (i : BitVec 2) (t : RotTable) :
    EncodeShape.Statement (.setRotationTable i t) := fun _ => by simp [encode, ShapeOk, selectors]

theorem EncodeShape.setWindow (x0 y0 x1 y1 : Half) :
    EncodeShape.Statement (.setWindow x0 y0 x1 y1) := fun _ => by simp [encode, ShapeOk, selectors]

theorem EncodeShape.setPixelFormat (b : Int) :
    EncodeShape.Statement (.setPixelFormat b) := fun _ => by simp [encode, ShapeOk, selectors]

theorem EncodeShape.setColorSpace (k : Int) :
    EncodeShape.Statement (.setColorSpace k) := fun _ => by simp [encode, ShapeOk, selectors]

theorem EncodeShape.sendCmd (cmd c : Byte) (n : Nat) :
    EncodeShape.Statement (.sendCmd cmd c n) := fun _ => by simp [encode, ShapeOk, selectors]

theorem EncodeShape.mirror (mx my : Bool) :
    EncodeShape.Statement (.mirror mx my) := fun _ => by simp [encode, ShapeOk, selectors]

theorem EncodeShape.swapXy (sw : Bool) :
    EncodeShape.Statement (.swapXy sw) := fun _ => by simp [encode, ShapeOk, selectors]

theorem EncodeShape.setGap (gx gy : Half) :
    EncodeShape.Statement (.setGap gx gy) := fun _ => by simp [encode, ShapeOk, selectors]

theorem EncodeShape.invertColor (v : Bool) :
    EncodeShape.Statement (.invertColor v) := fun _ => by simp [encode, ShapeOk, selectors]

theorem EncodeShape.dispOn : EncodeShape.Statement .dispOn := fun _ => by simp [encode, ShapeOk, selectors]

theorem EncodeShape.dispOff : EncodeShape.Statement .dispOff := fun _ => by simp [encode, ShapeOk, selectors]

theorem EncodeShape.backlightOn : EncodeShape.Statement .backlightOn := fun _ => by simp [encode, ShapeOk, selectors]

theorem EncodeShape.backlightOff : EncodeShape.Statement .backlightOff := fun _ => by simp [encode, ShapeOk, selectors]

theorem EncodeShape.brightness (b : I32) :
    EncodeShape.Statement (.brightness b) := fun _ => by simp [encode, ShapeOk, selectors]

theorem EncodeShape.width : EncodeShape.Statement .width := fun _ => by simp [encode, ShapeOk, selectors]

theorem EncodeShape.height : EncodeShape.Statement .height := fun _ => by simp [encode, ShapeOk, selectors]

theorem EncodeShape.vscrollArea (tfa vsa bfa : Half) :
    EncodeShape.Statement (.vscrollArea tfa vsa bfa) := fun _ => by simp [encode, ShapeOk, selectors]

theorem EncodeShape.vscrollStart (off : Half) (wrap : Option Bool) :
    EncodeShape.Statement (.vscrollStart off wrap) := fun _ => by simp [encode, ShapeOk, selectors]

theorem EncodeShape.pixel (x y c : Half) :
    EncodeShape.Statement (.pixel x y c) := fun _ => by simp [encode, ShapeOk, selectors]

theorem EncodeShape.fill (c : Half) : EncodeShape.Statement (.fill c) := fun _ => by simp [encode, ShapeOk, selectors]

theorem EncodeShape.fillRect (x y w h c : Half) :
    EncodeShape.Statement (.fillRect x y w h c) := fun _ => by simp [encode, ShapeOk, selectors]

theorem EncodeShape.hline (x y w c : Half) :
    EncodeShape.Statement (.hline x y w c) := fun _ => by simp [encode, ShapeOk, selectors]

theorem EncodeShape.vline (x y h c : Half) :
    EncodeShape.Statement (.vline x y h c) := fun _ => by simp [encode, ShapeOk, selectors]

theorem EncodeShape.bitmap (x0 y0 x1 y1 : Half) (buf : List Byte) :
    EncodeShape.Statement (.bitmap x0 y0 x1 y1 buf) := fun _ => by simp [encode, ShapeOk, selectors]

theorem EncodeShape.rect (x y w h c : Half) :
    EncodeShape.Statement (.rect x y w h c) := fun _ => by simp [encode, ShapeOk, selectors]

theorem EncodeShape.circle (xm ym r : I32) (c : Half) :
    EncodeShape.Statement (.circle xm ym r c) := fun _ => by simp [encode, ShapeOk, selectors]

theorem EncodeShape.fillCircle (xm ym r : I32) (c : Half) :
    EncodeShape.Statement (.fillCircle xm ym r c) := fun _ => by simp [encode, ShapeOk, selectors]

theorem EncodeShape.construct (bus : BusHandle) (rst : Option Nat) (rl : Bool) (k b : Int) :
    EncodeShape.Statement (.construct bus rst rl k b) := fun _ => by simp [encode, ShapeOk, selectors]

theorem EncodeShape.deinit : EncodeShape.Statement .deinit := fun _ => by simp [encode, ShapeOk, selectors]

theorem EncodeShape.reset : EncodeShape.Statement .reset := fun _ => by simp [encode, ShapeOk, selectors]

theorem EncodeShape.init : EncodeShape.Statement .init := fun _ => by simp [encode, ShapeOk, selectors]

theorem EncodeShape.madctl (m : Byte) : EncodeShape.Statement (.madctl m) := fun _ =>
  shape_command (by simp [Params.opcodes]) (by simp)

theorem EncodeShape.caset (x0 x1 : Half) : EncodeShape.Statement (.caset x0 x1) := fun _ =>
  shape_command (by simp [Params.opcodes]) (by simp [coord4])

theorem EncodeShape.raset (y0 y1 : Half) : EncodeShape.Statement (.raset y0 y1) := fun _ =>
  shape_command (by simp [Params.opcodes]) (by simp [coord4])

theorem EncodeShape.colmod (code : Byte) : EncodeShape.Statement (.colmod code) := fun _ =>
  shape_command (by simp [Params.opcodes]) (by simp)

theorem EncodeShape.slpin : EncodeShape.Statement .slpin := fun _ =>
  shape_command (by simp [Params.opcodes]) (by simp)

theorem EncodeShape.slpout : EncodeShape.Statement .slpout := fun _ =>
  shape_command (by simp [Params.opcodes]) (by simp)

theorem EncodeShape.dispon : EncodeShape.Statement .dispon := fun _ =>
  shape_command (by simp [Params.opcodes]) (by simp)

theorem EncodeShape.dispoff : EncodeShape.Statement .dispoff := fun _ =>
  shape_command (by simp [Params.opcodes]) (by simp)

theorem EncodeShape.invon : EncodeShape.Statement .invon := fun _ =>
  shape_command (by simp [Params.opcodes]) (by simp)

theorem EncodeShape.invoff : EncodeShape.Statement .invoff := fun _ =>
  shape_command (by simp [Params.opcodes]) (by simp)

theorem EncodeShape.wrdisbv (v : Byte) : EncodeShape.Statement (.wrdisbv v) := fun _ =>
  shape_command (by simp [Params.opcodes]) (by simp)

theorem EncodeShape.vscrdef (tfa vsa bfa : Half) : EncodeShape.Statement (.vscrdef tfa vsa bfa) := fun _ =>
  shape_command (by simp [Params.opcodes]) (by simp [be16])

theorem EncodeShape.vscsad (off : Half) : EncodeShape.Statement (.vscsad off) := fun _ =>
  shape_command (by simp [Params.opcodes]) (by simp [be16])

theorem EncodeShape.ramwr (len : Nat) : EncodeShape.Statement (.ramwr len) := fun _ => Or.inr (Or.inl rfl)

theorem EncodeShape.data (d : List Byte) : EncodeShape.Statement (.data d) := fun _ => Or.inr (Or.inr ⟨d, rfl, rfl⟩)

end Sys2Proof.Laws
end

