-- ==== Sys2Proof/Laws/Unread.lean ====
section
/-! SUPPORT. The ghosts (10_state.md R34) and the window (R25) are written and never read: each shared operation takes
states that differ in the ghosts alone, or in the window alone, to such states, with the same result. -/

namespace Sys2Proof.Machine

open Sys2Proof.Safety

/-- The two kinds of state that no operation reads. -/
inductive Unread where
  | ghosts
  | window

/-- The state with other ghosts and another window. -/
def withUnread (a b : Option Byte) (w : Option Window) (s : State) : State :=
  { s with txMadctl := a, txColmod := b, win := w }

/-- What two states that differ in `k` alone still have in common of the two kinds. -/
def Kept :
    Unread → Option Byte → Option Byte → Option Window → Option Byte → Option Byte → Option Window → Prop
  | .ghosts, _, _, w, _, _, w' => w = w'
  | .window, a, b, _, a', b', _ => a = a' ∧ b = b'

theorem Kept.refl (k : Unread) (a b : Option Byte) (w : Option Window) : Kept k a b w a b w := by
  cases k
  · rfl
  · exact ⟨rfl, rfl⟩

/-- Two states that differ in `k` alone. -/
def Differ (k : Unread) (s t : State) : Prop :=
  ∃ a b w, t = withUnread a b w s ∧ Kept k a b w s.txMadctl s.txColmod s.win

theorem sameButGhosts_iff {s t : State} : SameButGhosts s t ↔ Differ .ghosts s t := by
  constructor
  · intro h
    have e : withUnread t.txMadctl t.txColmod t.win { s with txMadctl := none, txColmod := none } =
        withUnread t.txMadctl t.txColmod t.win { t with txMadctl := none, txColmod := none } := congrArg _ h
    exact ⟨_, _, _, e.symm, (congrArg (fun u : State => u.win) h).symm⟩
  · rintro ⟨a, b, w, rfl, hw⟩
    have hw' : w = s.win := hw
    subst hw'
    rfl

theorem sameButWindow_iff {s t : State} : SameButWindow s t ↔ Differ .window s t := by
  constructor
  · intro h
    have e : withUnread t.txMadctl t.txColmod t.win { s with win := none } =
        withUnread t.txMadctl t.txColmod t.win { t with win := none } := congrArg _ h
    exact ⟨_, _, _, e.symm, (congrArg (fun u : State => u.txMadctl) h).symm,
      (congrArg (fun u : State => u.txColmod) h).symm⟩
  · rintro ⟨a, b, w, rfl, ha, hb⟩
    subst ha hb
    rfl

/-- Two operations ended with one result, in states that differ in `k` alone. -/
def Agree (k : Unread) (x y : State × Result) : Prop := x.2 = y.2 ∧ Differ k x.1 y.1

/-- An operation whose result, and whose state but for `k`, do not depend on `k`. -/
def Ignores (k : Unread) (op : Op) : Prop :=
  ∀ s a b w, Kept k a b w s.txMadctl s.txColmod s.win → Agree k (op s) (op (withUnread a b w s))

variable {k : Unread}

theorem Ignores.agree {op : Op} (h : Ignores k op) {s t : State} (e : Differ k s t) : Agree k (op s) (op t) := by
  obtain ⟨a, b, w, rfl, hk⟩ := e
  exact h s a b w hk

/-- Writing one window into both leaves at most the ghosts to differ in. -/
theorem differ_win {s t : State} (h : Differ k s t) (w : Option Window) :
    Differ k { s with win := w } { t with win := w } := by
  obtain ⟨a, b, w', rfl, hk⟩ := h
  refine ⟨a, b, w, rfl, ?_⟩
  cases k
  · rfl
  · exact hk

/-! ### How operations are put together -/

theorem ignores_requireActive {op : Op} (h : Ignores k op) : Ignores k (requireActive op) := by
  intro s a b w hk
  unfold requireActive
  show Agree k (if s.life = .active then _ else _) (if s.life = .active then _ else _)
  split_ifs
  · exact h s a b w hk
  · exact ⟨rfl, a, b, w, rfl, hk⟩

theorem agree_andThen {x y : State × Result} {op : Op} (h : Agree k x y) (ho : Ignores k op) :
    Agree k (andThen x op) (andThen y op) := by
  unfold andThen
  rw [← h.1]
  split_ifs
  · exact h
  · exact ho.agree h.2

theorem ignores_runAll (l : List Op) (h : ∀ op ∈ l, Ignores k op) : Ignores k (runAll l) := by
  induction l with
  | nil => exact fun s a b w hk => ⟨rfl, a, b, w, rfl, hk⟩
  | cons op l ih =>
    exact fun s a b w hk => agree_andThen (h op (by simp) s a b w hk) (ih fun o ho => h o (by simp [ho]))

theorem outcome_runOp {op : Op} (h : Ignores k op) {s t : State} (e : Differ k s t) :
    SameOutcome (Differ k) (runOp op s) (runOp op t) := by
  obtain ⟨a, b, w, rfl, hk⟩ := e
  unfold runOp
  show SameOutcome (Differ k) (if s.seq.phase = .idle then _ else _) (if s.seq.phase = .idle then _ else _)
  split_ifs
  · obtain ⟨h1, a', b', w', h2, hk'⟩ := h s a b w hk
    unfold finish
    rw [h2, ← h1]
    exact ⟨a', b', w', rfl, hk'⟩
  · rfl

/-! ### The transport -/

theorem ignores_raise (r : Result) : Ignores k (raise r) := by
  intro s a b w hk
  unfold raise
  show Agree k (setPhase .idle (if s.csLevel = true then _ else _), _)
    (setPhase .idle (if s.csLevel = true then _ else _), _)
  split_ifs <;> exact ⟨rfl, a, b, w, rfl, hk⟩

theorem differ_noteSent (c : Byte) (p : List Byte) {s t : State} (h : Differ k s t) :
    Differ k (noteSent c p s) (noteSent c p t) := by
  obtain ⟨a, b, w, rfl, hk⟩ := h
  unfold noteSent
  split
  · refine ⟨_, _, w, rfl, ?_⟩
    cases k with
    | ghosts => exact hk
    | window =>
      obtain ⟨rfl, rfl⟩ := hk
      exact ⟨rfl, rfl⟩
  · exact ⟨a, b, w, rfl, hk⟩

theorem ignores_submitCommand (c : Byte) (p : List Byte) : Ignores k (submitCommand c p) := by
  refine ignores_requireActive fun s a b w hk => ?_
  split_ifs
  · exact ⟨rfl, a, b, w, rfl, hk⟩
  · simp only [submit]
    have e : answerAt (cs Config.csAssert (setPhase .cmd (withUnread a b w s))) 0 =
        answerAt (cs Config.csAssert (setPhase .cmd s)) 0 := rfl
    rw [e]
    cases answerAt (cs Config.csAssert (setPhase .cmd s)) 0 with
    | fail st => exact (ignores_raise _).agree ⟨a, b, w, rfl, hk⟩
    | ok => exact ⟨rfl, differ_noteSent c p ⟨a, b, w, rfl, hk⟩⟩

theorem ignores_openColor (len : Nat) : Ignores k (openColor len) := by
  refine ignores_requireActive fun s a b w hk => ?_
  simp only [submit]
  have e : answerAt (setPhase .prime (cs Config.csAssert (withUnread a b w s))) 0 =
      answerAt (setPhase .prime (cs Config.csAssert s)) 0 := rfl
  rw [e]
  cases answerAt (setPhase .prime (cs Config.csAssert s)) 0 with
  | fail st => exact (ignores_raise _).agree ⟨a, b, w, rfl, hk⟩
  | ok => exact ⟨rfl, a, b, w, rfl, hk⟩

theorem ignores_sendChunk (d : List Byte) : Ignores k (sendChunk d) := by
  intro s a b w hk
  unfold sendChunk
  simp only [submit]
  have e : answerAt (withUnread a b w s) 0 = answerAt s 0 := rfl
  rw [e]
  cases answerAt s 0 with
  | fail st => exact (ignores_raise _).agree ⟨a, b, w, rfl, hk⟩
  | ok =>
    show Agree k (if (emit (.tx (dataFrame d)) (ask s)).seq.rem - d.length = 0 then _ else _)
      (if (emit (.tx (dataFrame d)) (ask s)).seq.rem - d.length = 0 then _ else _)
    split_ifs <;> exact ⟨rfl, a, b, w, rfl, hk⟩

theorem ignores_streamLoop (p : List Byte) (n : Nat) : Ignores k (streamLoop p n) := by
  induction n with
  | zero => exact fun s a b w hk => ⟨rfl, a, b, w, rfl, hk⟩
  | succ n ih =>
    intro s a b w hk
    unfold streamLoop
    refine agree_andThen (ignores_sendChunk _ s a b w hk) fun s a b w hk => ?_
    show Agree k (if s.seq.rem = 0 then _ else _) (if s.seq.rem = 0 then _ else _)
    split_ifs
    · exact ⟨rfl, a, b, w, rfl, hk⟩
    · exact ih s a b w hk

theorem ignores_submitColor (p : List Byte) : Ignores k (submitColor p) := fun s a b w hk =>
  agree_andThen (ignores_openColor _ s a b w hk) (ignores_streamLoop _ _)

end Sys2Proof.Machine
end

