-- ==== Sys2Proof/Tests/Slice0.lean ====
section
/-! SUPPORT. Tests. Expected values are the vectors of spec/95_test_vectors.md, cited by their names (V1, V30, …), or
hand-calculated from the rule cited; after them, witnesses for the hypotheses of the obligations. -/

-- The many kernel evaluations below run one after another: each thread of its own would take a large stack.
set_option Elab.async false

namespace Sys2Proof.Tests

open Sys2Proof Sys2Proof.Machine Sys2Proof.Safety

/-! ### Helpers -/

/-- `n` answers `ok`. -/
def oks (n : Nat) : List BusAnswer := List.replicate n .ok

/-- The standard start state of 95_test_vectors.md, with the bus's coming answers. -/
def started (answers : List BusAnswer) : State :=
  { State.reset with
    life := .active, busClaimed := true, width := 240, height := 536, rt := Params.defaultVendorTable
    txMadctl := some 0, rstPresent := true, answers := answers }

/-- The standard start state with another mirror of MADCTL. -/
def withMadctl (m : Byte) (answers : List BusAnswer) : State := { started answers with madctl := m }

/-- The start state with the parameters' `P_STREAM_AFTER_DROP` chosen. -/
def afterDrop (d : StreamAfterDrop) (answers : List BusAnswer) : State :=
  { started answers with cfg := { Params.standard with streamAfterDrop := d } }

/-- An object without a reset pin under `RESET_NO_PIN = swreset`, with these steps. -/
def softReset (steps : List InitStep) (answers : List BusAnswer) : State :=
  { started answers with
    rstPresent := false
    cfg := { Params.standard with resetNoPin := .swreset, swResetSteps := steps } }

/-- Power-on with the bus's coming answers. -/
def poweredOn (answers : List BusAnswer) : State := { State.reset with answers := answers }

/-- `TX.cmd(c; p)` as V1 to V3 write it out: command phase 0x02, the panel command in bits 15..8 of 24. -/
def cmdTx (c : Byte) (p : List Byte) : Transaction :=
  { cmd := some 0x02, addr := some ⟨24, c.toNat * 256⟩, data := p, flags := ⟨true, true, false, false, false, false⟩ }

/-- `TX.prime` as V4 writes it out. -/
def primeTx : Transaction :=
  { cmd := some 0x32, addr := some ⟨24, 0x002C00⟩, data := [], flags := ⟨false, false, true, false, false, false⟩ }

/-- `TX.data(d)` as V5 writes it out. -/
def dataTx (d : List Byte) : Transaction :=
  { cmd := none, addr := none, data := d, flags := ⟨false, false, true, true, true, true⟩ }

/-- `CS(0), TX.cmd(c; p), CS(1)`. -/
def sent (c : Byte) (p : List Byte) : List Event := [.cs false, .tx (cmdTx c p), .cs true]

/-- The three brackets of a small drawing: `C3` of 95_test_vectors.md. -/
def drawing (a b d : List Byte) : List Event :=
  sent 0x2A a ++ sent 0x2B b ++ [.cs false, .tx primeTx, .tx (dataTx d), .cs true]

/-- A list of events, `n` times. -/
def rep' (n : Nat) (es : List Event) : List Event := (List.replicate n es).flatten

/-- Trace and result of a next state. -/
def seen : Host.Outcome State Fault Refusal → Option (List Event × Option Result)
  | .next s => some (s.trace, s.result)
  | .fault _ => none
  | .refused _ => none

/-- Trace, result and one more value of a next state. -/
def seenWith {α : Type} (f : State → α) : Host.Outcome State Fault Refusal → Option (List Event × Option Result × α)
  | .next s => some (s.trace, s.result, f s)
  | .fault _ => none
  | .refused _ => none

/-! ### Well-formedness refuses -/

theorem test_wf_caset : (Instr.caset 1023 1024).wf Params.standard = false ∧
    (Instr.caset 1023 1023).wf Params.standard = true := by decide

theorem test_wf_raset : (Instr.raset 1024 0).wf Params.standard = false ∧
    (Instr.raset 0 1023).wf Params.standard = true := by decide

theorem test_wf_construct_command_phase :
    (Instr.construct { plainBus Params.standard with cmdBits := 16 } none false 0 16).wf Params.standard = false := by
  decide

theorem test_wf_construct_address_phase :
    (Instr.construct { plainBus Params.standard with addrBits := 32 } none false 0 16).wf Params.standard = false := by
  decide

theorem test_wf_data_too_long : (Instr.data (List.replicate 0x8001 0)).wf Params.standard = false := by
  rw [Instr.wf, List.length_replicate]; decide

theorem test_wf_data_longest : (Instr.data (List.replicate 0x8000 0)).wf Params.standard = true := by
  rw [Instr.wf, List.length_replicate]; decide

/-! ### Decoding: frames written out from V1 to V7, requests from 30_encoding.md R99 -/

theorem test_decode_madctl : decode Params.standard (.frame (cmdTx 0x36 [0x60]) 0) = .ok (.madctl 0x60) := by
  decide +kernel

theorem test_decode_caset :
    decode Params.standard (.frame (cmdTx 0x2A [0x00, 0x00, 0x00, 0xEF]) 0) = .ok (.caset 0 239) := by decide +kernel

theorem test_decode_raset :
    decode Params.standard (.frame (cmdTx 0x2B [0x00, 0x00, 0x02, 0x17]) 0) = .ok (.raset 0 535) := by decide +kernel

/-- Bits beyond `COORD_HI_MASK` (20_memory.md R65): no CASET row, so a raw command. -/
theorem test_decode_coordinate_too_wide :
    decode Params.standard (.frame (cmdTx 0x2A [0x04, 0x00, 0x04, 0x00]) 0) =
      .ok (.submitCommand 0x2A [0x04, 0x00, 0x04, 0x00]) := by decide +kernel

theorem test_decode_colmod : decode Params.standard (.frame (cmdTx 0x3A [0x75]) 0) = .ok (.colmod 0x75) := by
  decide +kernel

theorem test_decode_slpin : decode Params.standard (.frame (cmdTx 0x10 []) 0) = .ok .slpin := by decide +kernel

theorem test_decode_slpout : decode Params.standard (.frame (cmdTx 0x11 []) 0) = .ok .slpout := by decide +kernel

theorem test_decode_dispon : decode Params.standard (.frame (cmdTx 0x29 []) 0) = .ok .dispon := by decide +kernel

theorem test_decode_dispoff : decode Params.standard (.frame (cmdTx 0x28 []) 0) = .ok .dispoff := by decide +kernel

theorem test_decode_invon : decode Params.standard (.frame (cmdTx 0x21 []) 0) = .ok .invon := by decide +kernel

theorem test_decode_invoff : decode Params.standard (.frame (cmdTx 0x20 []) 0) = .ok .invoff := by decide +kernel

theorem test_decode_wrdisbv : decode Params.standard (.frame (cmdTx 0x51 [0xFF]) 0) = .ok (.wrdisbv 0xFF) := by
  decide +kernel

theorem test_decode_vscrdef :
    decode Params.standard (.frame (cmdTx 0x33 [0x00, 0x0A, 0x01, 0xF4, 0x00, 0x1A]) 0) =
      .ok (.vscrdef 10 500 26) := by decide +kernel

theorem test_decode_vscsad : decode Params.standard (.frame (cmdTx 0x37 [0x02, 0x17]) 0) = .ok (.vscsad 535) := by
  decide +kernel

theorem test_decode_ramwr : decode Params.standard (.frame primeTx 257280) = .ok (.ramwr 257280) := by
  decide +kernel

theorem test_decode_data : decode Params.standard (.frame (dataTx [0xF8, 0x00]) 0) = .ok (.data [0xF8, 0x00]) := by
  decide +kernel

/-- V6: a command in no row of the table. -/
theorem test_decode_raw_command :
    decode Params.standard (.frame (cmdTx 0xFF []) 0) = .ok (.submitCommand 0xFF []) := by decide +kernel

/-- V7: 32 address bits. -/
theorem test_decode_wide_address :
    decode { Params.standard with addrBits := 32 }
      (.frame { cmdTx 0x36 [0x60] with addr := some ⟨32, 0x00003600⟩ } 0) = .ok (.madctl 0x60) := by
  decide +kernel

theorem test_decode_wrong_flags :
    decode Params.standard (.frame { cmdTx 0x36 [0x60] with flags := dataFlags } 0) = .error .notAFrame := by
  decide +kernel

theorem test_decode_submit_command :
    decode Params.standard (.request 0x00 [.int 0x36, .buf [0x60]]) = .ok (.submitCommand 0x36 [0x60]) := by
  decide +kernel

theorem test_decode_set_rotation : decode Params.standard (.request 0x08 [.int 3]) = .ok (.setRotation 3) := by
  decide +kernel

theorem test_decode_set_window :
    decode Params.standard (.request 0x0A [.int 0, .int 65535, .int 239, .int 535]) =
      .ok (.setWindow 0 65535 239 535) := by
  rfl

theorem test_decode_send_cmd :
    decode Params.standard (.request 0x0D [.int 0x51, .int 0x80, .int 1]) = .ok (.sendCmd 0x51 0x80 1) := by
  decide +kernel

theorem test_decode_mirror : decode Params.standard (.request 0x0E [.int 1, .int 0]) = .ok (.mirror true false) := by
  decide +kernel

theorem test_decode_brightness_negative :
    decode Params.standard (.request 0x16 [.int (-10)]) = .ok (.brightness (-10)) := by decide +kernel

theorem test_decode_brightness_out_of_range :
    decode Params.standard (.request 0x16 [.int 2147483648]) = .error .badOperands := by decide +kernel

theorem test_decode_vscroll_flag_absent :
    decode Params.standard (.request 0x1A [.int 100, .absent]) = .ok (.vscrollStart 100 none) := by decide +kernel

theorem test_decode_circle :
    decode Params.standard (.request 0x29 [.int 50, .int 60, .int (-1), .int 0xFFFF]) =
      .ok (.circle 50 60 (-1) 0xFFFF) := by decide +kernel

theorem test_decode_construct :
    decode Params.standard (.request 0x30 [.bus (plainBus Params.standard), .absent, .int 0, .int 1, .int 24]) =
      .ok (.construct (plainBus Params.standard) none false 1 24) := by decide +kernel

theorem test_decode_reset : decode Params.standard (.request 0x32 []) = .ok .reset := by decide +kernel

theorem test_decode_unknown : decode Params.standard (.request 0x3F []) = .error .unknownOperation := by decide +kernel

theorem test_decode_too_many_operands : decode Params.standard (.request 0x12 [.int 0]) = .error .badOperands := by
  decide +kernel

/-- An opcode-table word runs as the first instruction. -/
theorem test_fetch_word : step ((started (oks 1)).withFetchWord 32 0x02003600) = exec (.madctl 0) (started (oks 1)) := by
  rfl

/-! ### Chunks (V10 to V19) -/

theorem test_chunk_counts :
    [0, 1, 2, 0x7FFF, 0x8000, 0x8001, 0x10000, 257280, 385920, 40000].map chunkCount =
      [1, 1, 1, 1, 1, 2, 2, 8, 12, 2] := by decide +kernel

/-- V14 to V19: the size of the last chunk. -/
theorem test_chunk_last_sizes :
    [(0x8000, 0), (0x8001, 1), (0x10000, 1), (257280, 7), (385920, 11), (40000, 1)].map (fun q => chunkSize q.1 q.2) =
      [32768, 1, 32768, 27904, 25472, 7232] := by decide +kernel

/-- V10: a payload of no bytes is one chunk of no bytes. -/
theorem test_chunks_empty : chunks [] = [[]] := by decide +kernel

/-! ### Bus transport -/

/-- V20: the raw path moves the ghost, not the mirror. -/
theorem test_submit_command :
    seenWith (fun t => (t.txMadctl, t.madctl)) (exec (.submitCommand 0x36 [0x60]) (started (oks 1))) =
      some (sent 0x36 [0x60], some .done, some 0x60, 0x00) := by decide +kernel

/-- V23. -/
theorem test_submit_command_fails :
    seenWith (·.csLevel) (exec (.submitCommand 0x11 []) (started [.fail 7])) =
      some (sent 0x11 [], some (.ioError 7), true) := by decide +kernel

/-- V22: one byte too long. -/
theorem test_submit_command_too_long :
    exec (.submitCommand 0x2C (List.replicate 0x8001 0)) (started []) =
      .next { started [] with result := some (.refused .payloadTooLong) } := by
  have h : Config.busMax < (List.replicate 0x8001 (0 : Byte)).length := by rw [List.length_replicate]; decide
  have hl : (started []).life = .active := rfl
  have hp : (started []).seq.phase = .idle := rfl
  simp only [exec, execSubmitCommand, runOp, submitCommand, requireActive, finish, if_pos h, if_pos hl, if_pos hp]

/-- V11: a colour transfer is one bracket. -/
theorem test_submit_color :
    seen (exec (.submitColor [0xF8]) (started (oks 2))) =
      some ([.cs false, .tx primeTx, .tx (dataTx [0xF8]), .cs true], some .done) := by decide +kernel

/-- V10: the empty payload sends one empty data frame. -/
theorem test_submit_color_empty :
    seen (exec (.submitColor []) (started (oks 2))) =
      some ([.cs false, .tx primeTx, .tx (dataTx []), .cs true], some .done) := by decide +kernel

/-! ### Wire commands: V1 to V5, 30_encoding.md R96 -/

theorem test_madctl :
    seenWith (·.txMadctl) (exec (.madctl 0x60) (started (oks 1))) = some (sent 0x36 [0x60], some .done, some 0x60) := by
  decide +kernel

theorem test_caset :
    seen (exec (.caset 0 239) (started (oks 1))) = some (sent 0x2A [0x00, 0x00, 0x00, 0xEF], some .done) := by
  decide +kernel

theorem test_raset :
    seen (exec (.raset 0 535) (started (oks 1))) = some (sent 0x2B [0x00, 0x00, 0x02, 0x17], some .done) := by
  decide +kernel

theorem test_colmod :
    seenWith (fun t => (t.txColmod, t.colmod)) (exec (.colmod 0x77) (started (oks 1))) =
      some (sent 0x3A [0x77], some .done, some 0x77, 0x75) := by decide +kernel

theorem test_slpin : seen (exec .slpin (started (oks 1))) = some (sent 0x10 [], some .done) := by decide +kernel

theorem test_slpout : seen (exec .slpout (started (oks 1))) = some (sent 0x11 [], some .done) := by decide +kernel

theorem test_dispon : seen (exec .dispon (started (oks 1))) = some (sent 0x29 [], some .done) := by decide +kernel

theorem test_dispoff : seen (exec .dispoff (started (oks 1))) = some (sent 0x28 [], some .done) := by decide +kernel

theorem test_invon : seen (exec .invon (started (oks 1))) = some (sent 0x21 [], some .done) := by decide +kernel

theorem test_invoff : seen (exec .invoff (started (oks 1))) = some (sent 0x20 [], some .done) := by decide +kernel

theorem test_wrdisbv : seen (exec (.wrdisbv 0x80) (started (oks 1))) = some (sent 0x51 [0x80], some .done) := by
  decide +kernel

theorem test_vscrdef :
    seen (exec (.vscrdef 10 500 26) (started (oks 1))) =
      some (sent 0x33 [0x00, 0x0A, 0x01, 0xF4, 0x00, 0x1A], some .done) := by decide +kernel

theorem test_vscsad : seen (exec (.vscsad 535) (started (oks 1))) = some (sent 0x37 [0x02, 0x17], some .done) := by
  decide +kernel

theorem test_ramwr :
    seenWith (fun t => (t.seq, t.csLevel)) (exec (.ramwr 4) (started (oks 1))) =
      some ([.cs false, .tx primeTx], some .done, ⟨.chunk, 0, 4⟩, false) := by decide +kernel

/-- The last data frame of a transfer closes its bracket (40_bus_transport.md R121). -/
theorem test_data :
    seenWith (fun t => (t.seq, t.csLevel))
        (performAll [.ramwr 2, .data [0xF8, 0x00]] (started (oks 2))) =
      some ([.cs false, .tx primeTx, .tx (dataTx [0xF8, 0x00]), .cs true], some .done, ⟨.idle, 2, 0⟩, true) := by
  decide +kernel

theorem test_data_outside : exec (.data []) (started (oks 1)) = .fault .dataOutsideBracket := by rfl

/-! ### Panel protocol (V30 to V75) -/

/-- V33. -/
theorem test_set_rotation :
    seenWith (fun t => (t.madctl, t.rotation, t.width, t.height)) (exec (.setRotation 3) (withMadctl 0x08 (oks 1))) =
      some (sent 0x36 [0xA8], some .done, 0xA8, 3, 536, 240) := by decide +kernel

/-- V34. -/
theorem test_set_rotation_keeps_low_bits :
    seenWith (·.madctl) (exec (.setRotation 0) (withMadctl 0xFF (oks 1))) =
      some (sent 0x36 [0x1F], some .done, 0x1F) := by decide +kernel

/-- V38: the entry's bit 2 is not masked. -/
theorem test_set_rotation_table :
    seenWith (fun t => [t.width, t.height, t.xGap, t.yGap])
        (exec (.setRotationTable 2 { zeroTable with e2 := ⟨0xC4, 100, 50, 3, 4⟩ }) (started (oks 1))) =
      some (sent 0x36 [0xC4], some .done, [100, 50, 3, 4]) := by decide +kernel

/-- 42_panel_protocol_ops.md R161: a failed transmission keeps the old table. -/
theorem test_set_rotation_table_fails :
    seenWith (fun t => (t.rt, t.madctl, t.width))
        (exec (.setRotationTable 2 { zeroTable with e2 := ⟨0xC4, 100, 50, 3, 4⟩ }) (started [.fail 1])) =
      some (sent 0x36 [0xC4], some (.ioError 1), Params.defaultVendorTable, 0x00, 240) := by decide +kernel

/-- V40. -/
theorem test_set_window :
    seenWith (·.win) (exec (.setWindow 0 0 239 535) (started (oks 2))) =
      some (sent 0x2A [0x00, 0x00, 0x00, 0xEF] ++ sent 0x2B [0x00, 0x00, 0x02, 0x17], some .done,
        some ⟨0, 0, 239, 535⟩) := by decide +kernel

/-- V43 to V47. -/
theorem test_set_window_drops :
    [(0, 0, 240, 535), (0, 0, 239, 536), (5, 5, 4, 6), (5, 7, 6, 6), (65535, 0, 65535, 0)].map
        (fun q : Half × Half × Half × Half =>
          seenWith (·.win) (exec (.setWindow q.1 q.2.1 q.2.2.1 q.2.2.2) (started (oks 2)))) =
      List.replicate 5 (some ([], some .dropped, none)) := by decide +kernel

/-- V49: the mask drops bit 10. -/
theorem test_coord4_masks : coord4 Params.standard 0x0417 0x0417 = [0x00, 0x17, 0x00, 0x17] := by decide +kernel

/-- V51. -/
theorem test_set_pixel_format :
    seenWith (fun t => (t.bpp, t.colmod, t.txColmod)) (exec (.setPixelFormat 18) (started (oks 1))) =
      some (sent 0x3A [0x76], some .done, .bpp18, 0x76, some 0x76) := by decide +kernel

/-- V53. -/
theorem test_set_pixel_format_unsupported :
    seen (exec (.setPixelFormat 12) (started (oks 1))) = some ([], some (.valueError .unsupportedBitDepth)) := by
  decide +kernel

/-- V54. -/
theorem test_set_color_space :
    seenWith (fun t => (t.madctl, t.colorSpace)) (exec (.setColorSpace 1) (withMadctl 0x60 (oks 1))) =
      some (sent 0x36 [0x68], some .done, 0x68, .bgr) := by decide +kernel

/-- V55. -/
theorem test_set_color_space_rgb :
    seenWith (fun t => (t.madctl, t.colorSpace)) (exec (.setColorSpace 0) (withMadctl 0xC8 (oks 1))) =
      some (sent 0x36 [0xC0], some .done, 0xC0, .rgb) := by decide +kernel

/-- V59. -/
theorem test_send_cmd :
    seenWith (fun t => (t.madctl, t.txMadctl)) (exec (.sendCmd 0x36 0x00 1) (withMadctl 0xC8 (oks 1))) =
      some (sent 0x36 [0x00], some .done, 0xC8, some 0x00) := by decide +kernel

/-- V60. -/
theorem test_send_cmd_bad_length :
    seen (exec (.sendCmd 0x2A 0 2) (started (oks 1))) = some ([], some (.refused .badLength)) := by decide +kernel

/-- V61. -/
theorem test_mirror :
    seenWith (·.madctl) (exec (.mirror true false) (withMadctl 0xA8 (oks 1))) =
      some (sent 0x36 [0x68], some .done, 0x68) := by decide +kernel

/-- V62. -/
theorem test_mirror_clears :
    seenWith (·.madctl) (exec (.mirror false false) (withMadctl 0xC0 (oks 1))) =
      some (sent 0x36 [0x00], some .done, 0x00) := by decide +kernel

/-- V63. -/
theorem test_swap_xy :
    seenWith (fun t => (t.madctl, t.width)) (exec (.swapXy true) (withMadctl 0x40 (oks 1))) =
      some (sent 0x36 [0x60], some .done, 0x60, 240) := by decide +kernel

/-- V63. -/
theorem test_swap_xy_clears :
    seenWith (·.madctl) (exec (.swapXy false) (withMadctl 0x68 (oks 1))) =
      some (sent 0x36 [0x48], some .done, 0x48) := by decide +kernel

/-- V71. -/
theorem test_set_gap :
    seenWith (fun t => (t.xGap, t.yGap)) (exec (.setGap 2 3) (started [])) = some ([], some .done, 2, 3) := by
  decide +kernel

/-- V69. -/
theorem test_invert_color :
    (seen (exec (.invertColor true) (started (oks 1))), seen (exec (.invertColor false) (started (oks 1)))) =
      (some (sent 0x21 [], some .done), some (sent 0x20 [], some .done)) := by decide +kernel

/-- V70. -/
theorem test_disp_on : seen (exec .dispOn (started (oks 1))) = some (sent 0x29 [], some .done) := by decide +kernel

/-- V70. -/
theorem test_disp_off : seen (exec .dispOff (started (oks 1))) = some (sent 0x28 [], some .done) := by decide +kernel

/-- V68. -/
theorem test_backlight_on : seen (exec .backlightOn (started (oks 1))) = some (sent 0x51 [0xFF], some .done) := by
  decide +kernel

/-- V68. -/
theorem test_backlight_off : seen (exec .backlightOff (started (oks 1))) = some (sent 0x51 [0x00], some .done) := by
  decide +kernel

/-- V64 to V67. -/
theorem test_brightness :
    [150, -10, 0, 1, 50, 99, 100, -2147483648].map (fun b : I32 => seen (exec (.brightness b) (started (oks 1)))) =
      [0xFF, 0x00, 0x00, 0x02, 0x7F, 0xFC, 0xFF, 0x00].map (fun v : Byte => some (sent 0x51 [v], some .done)) := by
  decide +kernel

/-- V72. -/
theorem test_width : seen (exec .width (started [])) = some ([], some (.value 240)) := by decide +kernel

/-- V72. -/
theorem test_height : seen (exec .height (started [])) = some ([], some (.value 536)) := by decide +kernel

/-- V73. -/
theorem test_vscroll_area :
    seen (exec (.vscrollArea 0 536 0) (started (oks 1))) =
      some (sent 0x33 [0x00, 0x00, 0x02, 0x18, 0x00, 0x00], some .done) := by decide +kernel

/-- V75. -/
theorem test_vscroll_start :
    (seen (exec (.vscrollStart 100 none) (started (oks 1))),
        seen (exec (.vscrollStart 535 (some false)) (started (oks 1)))) =
      (some (sent 0x37 [0x00, 0x64], some .done), some (sent 0x37 [0x02, 0x17], some .done)) := by decide +kernel

/-! ### Drawing (V80 to V95) -/

/-- V80. -/
theorem test_pixel :
    seenWith (·.win) (exec (.pixel 10 300 0xF800) (started (oks 4))) =
      some (drawing [0x00, 0x0A, 0x00, 0x0A] [0x01, 0x2C, 0x01, 0x2C] [0xF8, 0x00], some .done,
        some ⟨10, 300, 10, 300⟩) := by decide +kernel

/-- V83. -/
theorem test_pixel_off_the_panel :
    (seen (exec (.pixel 240 0 0xFFFF) (afterDrop .skip (oks 4))),
        seen (exec (.pixel 240 0 0xFFFF) (afterDrop .send (oks 4)))) =
      (some ([], some .dropped),
        some ([.cs false, .tx primeTx, .tx (dataTx [0xFF, 0xFF]), .cs true], some .dropped)) := by decide +kernel

/-- FILL (43_drawing_ops.md R192) on a panel of 2 by 3. -/
theorem test_fill :
    seenWith (·.win) (exec (.fill 0x001F) { started (oks 4) with width := 2, height := 3 }) =
      some (drawing [0x00, 0x00, 0x00, 0x01] [0x00, 0x00, 0x00, 0x02]
        [0x00, 0x1F, 0x00, 0x1F, 0x00, 0x1F, 0x00, 0x1F, 0x00, 0x1F, 0x00, 0x1F], some .done, some ⟨0, 0, 1, 2⟩) := by
  decide +kernel

/-- V89 with the colour's two bytes told apart: clipped to 10 by 6. -/
theorem test_fill_rect :
    seenWith (·.win) (exec (.fillRect 230 530 20 20 0x1122) (started (oks 4))) =
      some (drawing [0x00, 0xE6, 0x00, 0xEF] [0x02, 0x12, 0x02, 0x17] (rep [0x11, 0x22] 60), some .done,
        some ⟨230, 530, 239, 535⟩) := by decide +kernel

/-- V89a. -/
theorem test_fill_rect_empty :
    (seen (exec (.fillRect 0 0 0 5 0) (started [])), seen (exec (.fillRect 240 0 5 5 0) (started []))) =
      (some ([], some .dropped), some ([], some .dropped)) := by decide +kernel

/-- V86. -/
theorem test_hline :
    seen (exec (.hline 238 5 10 0x1234) (started (oks 4))) =
      some (drawing [0x00, 0xEE, 0x00, 0xEF] [0x00, 0x05, 0x00, 0x05] [0x12, 0x34, 0x12, 0x34], some .done) := by
  decide +kernel

/-- V87. -/
theorem test_hline_off_the_panel :
    (seen (exec (.hline 0 536 10 0x1234) (afterDrop .skip (oks 2))),
        seen (exec (.hline 0 536 10 0x1234) (afterDrop .send (oks 2)))) =
      (some ([], some .dropped),
        some ([.cs false, .tx primeTx, .tx (dataTx (rep [0x12, 0x34] 10)), .cs true], some .dropped)) := by
  decide +kernel

/-- V88. -/
theorem test_vline :
    seen (exec (.vline 0 530 100 0x1234) (started (oks 4))) =
      some (drawing [0x00, 0x00, 0x00, 0x00] [0x02, 0x12, 0x02, 0x17] (rep [0x12, 0x34] 6), some .done) := by
  decide +kernel

/-- V90. -/
theorem test_bitmap :
    seenWith (·.win)
        (exec (.bitmap 10 20 14 22 [0, 1, 2, 3, 4, 5, 6, 7, 8, 9, 10, 11, 12, 13, 14, 15])
          { started (oks 4) with xGap := 2, yGap := 3 }) =
      some (drawing [0x00, 0x0C, 0x00, 0x0F] [0x00, 0x17, 0x00, 0x18]
        [0, 1, 2, 3, 4, 5, 6, 7, 8, 9, 10, 11, 12, 13, 14, 15], some .done, some ⟨12, 23, 15, 24⟩) := by decide +kernel

/-- V92 and V94. -/
theorem test_bitmap_empty_and_short :
    (seen (exec (.bitmap 10 20 10 22 []) (started [])), seen (exec (.bitmap 0 0 4 4 (rep [0] 31)) (started []))) =
      (some ([], some .dropped), some ([], some (.refused .shortBuffer))) := by decide +kernel

/-! ### Raster (V100 to V109) -/

/-- V101 to V104. -/
theorem test_circle_steps :
    (circleSteps 1, circleSteps 3, circleSteps 5, circleSteps 8) =
      ([(0, 1)], [(0, 3), (1, 3), (2, 2)], [(0, 5), (1, 5), (2, 5), (3, 4)],
        [(0, 8), (1, 8), (2, 8), (3, 7), (4, 7), (5, 6)]) := by decide +kernel

/-- V103: 28 points for radius 5; V107: 97 pixels in the disc. -/
theorem test_circle_point_counts :
    ((circlePoints 0 0 5).eraseDups.length,
        ((circleSpans 0 0 5).flatMap fun q =>
          (List.range q.2.2.toNat).map fun k => (q.1, q.2.1 + (k : Int))).eraseDups.length) = (28, 97) := by
  decide +kernel

/-- V100: radius 0 is eight identical pixels; V106: a negative radius. -/
theorem test_circle :
    (seen (exec (.circle 50 60 0 0x1234) (started (oks 32))), seen (exec (.circle 10 10 (-1) 0) (started []))) =
      (some (rep' 8 (drawing [0x00, 0x32, 0x00, 0x32] [0x00, 0x3C, 0x00, 0x3C] [0x12, 0x34]), some .done),
        some ([], some .dropped)) := by
  decide +kernel

/-- V105: the points with a negative coordinate fail the window check and do not wrap. -/
theorem test_circle_at_the_corner :
    (seen (exec (.circle 0 0 1 0x1234) (afterDrop .skip (oks 16))),
        seen (exec (.circle 0 0 1 0x1234) (afterDrop .send (oks 24)))) =
      (let below := drawing [0, 0, 0, 0] [0, 1, 0, 1] [0x12, 0x34]
       let right := drawing [0, 1, 0, 1] [0, 0, 0, 0] [0x12, 0x34]
       let colours := [.cs false, .tx primeTx, .tx (dataTx [0x12, 0x34]), .cs true]
       (some (below ++ below ++ right ++ right, some .done),
        some (below ++ below ++ colours ++ colours ++ right ++ colours ++ right ++ colours, some .done))) := by
  decide +kernel

/-- V107: radius 0 is four times the same one-pixel column. -/
theorem test_fill_circle :
    seen (exec (.fillCircle 100 100 0 0x1234) (started (oks 16))) =
      some (rep' 4 (drawing [0x00, 0x64, 0x00, 0x64] [0x00, 0x64, 0x00, 0x64] [0x12, 0x34]), some .done) := by
  decide +kernel

/-- V108. -/
theorem test_rect :
    seen (exec (.rect 0 0 3 2 0x1234) (started (oks 16))) =
      some (drawing [0, 0, 0, 2] [0, 0, 0, 0] (rep [0x12, 0x34] 3) ++
        drawing [0, 0, 0, 2] [0, 1, 0, 1] (rep [0x12, 0x34] 3) ++
        drawing [0, 0, 0, 0] [0, 0, 0, 1] (rep [0x12, 0x34] 2) ++
        drawing [0, 2, 0, 2] [0, 0, 0, 1] (rep [0x12, 0x34] 2), some .done) := by decide +kernel

/-! ### Lifecycle (V110 to V125) -/

/-- V110: CONSTRUCT reaches the standard start state. -/
theorem test_construct :
    exec (.construct (plainBus Params.standard) (some 5) false 0 16) (poweredOn (oks 2)) =
      .next { started [] with trace := .claim :: sent 0x36 [0x00], asked := 2, result := some .done } := by rfl

/-- V116: a failed first rotation gives the bus back. -/
theorem test_construct_fails :
    exec (.construct (plainBus Params.standard) none true 1 24) (poweredOn [.ok, .fail 9]) =
      .next
        { poweredOn [] with
          trace := .claim :: sent 0x36 [0x08] ++ [.release], asked := 2, result := some (.ioError 9) } := by rfl

/-- V114: the colour space is looked at first. -/
theorem test_construct_priority :
    seen (exec (.construct (plainBus Params.standard) none false 5 15) (poweredOn [])) =
      some ([], some (.valueError .unsupportedColorSpace)) := by decide +kernel

/-- V117: an unknown geometry. -/
theorem test_construct_generic_table :
    seenWith (fun t => (t.rt, t.width, t.height))
        (exec (.construct (plainBus Params.standard) none false 0 16)
          { poweredOn (oks 2) with cfg := { Params.standard with nativeW := 320, nativeH := 240 } }) =
      some ([.claim, .warn .unknownGeometry] ++ sent 0x36 [0x00], some .done,
        ⟨⟨0x00, 320, 240, 0, 0⟩, ⟨0x60, 240, 320, 0, 0⟩, ⟨0xC0, 320, 240, 0, 0⟩, ⟨0xA0, 240, 320, 0, 0⟩⟩, 320, 240) := by
  decide +kernel

/-- V119: the bus is given back once. -/
theorem test_deinit :
    seenWith (fun t => (t.life, t.busClaimed)) (performAll [.deinit, .deinit] (started [])) =
      some ([.release], some .done, .released, false) := by decide +kernel

/-- V120, with the two waits chosen. -/
theorem test_reset :
    seenWith (fun t => (t.rstLevel, t.txMadctl))
        (exec .reset { started [] with cfg := { Params.standard with resetAssertUs := 10, resetReleaseUs := 120 } }) =
      some ([.rst false, .delay 10, .rst true, .delay 120], some .done, true, none) := by decide +kernel

/-- V122; and one frame and a wait under `swreset` (45_lifecycle_ops.md R223, log entry 9). -/
theorem test_reset_without_pin :
    seenWith (·.txMadctl) (exec .reset { started [] with rstPresent := false }) = some ([], some .done, none) ∧
      seenWith (·.txMadctl) (exec .reset (softReset [.frame 0x01 [], .delay 5] [.ok])) =
        some (sent 0x01 [] ++ [.delay 5], some .done, none) := by
  decide +kernel

/-- V123. -/
theorem test_init :
    exec .init (started (oks 4)) =
      .next
        { started [] with
          trace := sent 0x11 [] ++ [.delay Config.slpoutUs] ++ sent 0x3A [0x75] ++ sent 0x36 [0x00] ++ sent 0x29 []
          txColmod := some 0x75, asked := 4, result := some .done } := by rfl

/-- V124: the third frame fails, and DISPON is not sent. -/
theorem test_init_fails :
    exec .init (started [.ok, .ok, .fail 3]) =
      .next
        { started [] with
          trace := sent 0x11 [] ++ [.delay Config.slpoutUs] ++ sent 0x3A [0x75] ++ sent 0x36 [0x00]
          txColmod := some 0x75, asked := 3, result := some (.ioError 3) } := by rfl

/-! ### Witnesses: states and operands that meet the hypotheses of the obligations -/

/-- StepPerformsTheOldestRequest: a waiting port, a request that decodes, an unknown selector, wrong operands. -/
theorem witness_step :
    (started []).port = [] ∧ decode Params.standard (.request 0x17 []) = .ok .width ∧
      decode Params.standard (.request 0x02 []) = .error .unknownOperation ∧
      decode Params.standard (.request 0x12 [.int 0]) = .error .badOperands := by decide +kernel

/-- The default parameters are admissible: DecodeEncodeAgree, CoordinatesAreBigEndianMasked,
InitSendsTheDefaultSequence, MirrorSurvivesEveryOperationButRawOnes, RawMadctlDivergesUntilRepaired. -/
theorem witness_parameters_ok : Params.standard.Ok := by decide

/-- DecodeEncodeAgree: well-formed instructions at their bounds. -/
theorem witness_well_formed :
    (Instr.caset 1023 1023).wf Params.standard = true ∧ (Instr.raset 0 1023).wf Params.standard = true ∧
      (Instr.data []).wf Params.standard = true ∧
      (Instr.construct (plainBus Params.standard) none true (-1) 0).wf Params.standard = true := by decide

/-- The states the statements about operations assume: ACTIVE, sequencer IDLE, the bus answering. -/
theorem witness_ready : Ready (started (oks 40)) ∧ BusOk (started (oks 40)) 40 ∧ answerAt (started (oks 40)) 0 = .ok := by
  decide +kernel

/-- The same with a bus that refuses at once. -/
theorem witness_refused_frame : Ready (started [.fail 0]) ∧ answerAt (started [.fail 0]) 0 = .fail 0 := by decide +kernel

/-- WireRowsSendTheirEncoding. -/
theorem witness_wire_rows :
    Ready (started (oks 1)) ∧ (started (oks 1)).bus.addrBits = (started (oks 1)).cfg.addrBits ∧
      16 ≤ (started (oks 1)).cfg.addrBits ∧ wireCommand .slpin = true ∧ ∃ t, exec .slpin (started (oks 1)) = .next t :=
  ⟨by decide, by decide, by decide, rfl, _, rfl⟩

/-- CoordinatesAreBigEndianMasked: the widest coordinates the mask keeps, and one it does not. -/
theorem witness_coordinates : Ready (started []) ∧ (started []).cfg = Params.standard ∧
    (1023 : Half).toNat < 2 ^ Params.standard.coordBits ∧ ¬ (1024 : Half).toNat < 2 ^ Params.standard.coordBits :=
  ⟨by decide, rfl, by decide, by decide⟩

/-- SubmitCommandSendsOneFrame: its four clauses, the length at its bound and one above. -/
theorem witness_submit_command : ∃ p q : List Byte,
    (started [.ok]).seq.phase = .idle ∧ (started [.ok]).life = .active ∧ p.length ≤ Config.busMax ∧
      answerAt (started [.ok]) 0 = .ok ∧ answerAt (started [.fail 7]) 0 = .fail 7 ∧ Config.busMax < q.length ∧
      State.reset.life ≠ .active ∧ State.reset.seq.phase = .idle :=
  ⟨List.replicate 0x8000 0, List.replicate 0x8001 0, by
    rw [List.length_replicate, List.length_replicate]; decide +kernel⟩

/-- SubmitColorStreamsEveryChunk, FramesRefineSubmitColor: the empty payload, and one of two chunks. -/
theorem witness_submit_color : ∃ p : List Byte,
    Ready (started (oks 3)) ∧ BusOk (started (oks 3)) (chunkCount p.length + 1) ∧
      BusOk (started (oks 3)) (chunkCount ([] : List Byte).length + 1) :=
  ⟨List.replicate 0x8001 0, by rw [List.length_replicate]; decide +kernel⟩

/-- SubmitColorStopsAtTheFirstFailure: the second chunk of two is refused. -/
theorem witness_submit_color_fails : ∃ p : List Byte,
    Ready (started [.ok, .ok, .fail 5]) ∧ 1 < chunkCount p.length ∧ BusOk (started [.ok, .ok, .fail 5]) (1 + 1) ∧
      answerAt (started [.ok, .ok, .fail 5]) (1 + 1) = .fail 5 :=
  ⟨List.replicate 0x8001 0, by rw [List.length_replicate]; decide +kernel⟩

/-- An open colour transfer with `rem` bytes remaining. -/
def streaming (rem : Nat) (answers : List BusAnswer) : State :=
  { started answers with seq := ⟨.chunk, 0, rem⟩, csLevel := false }

/-- DataIsOneTripOfTheLoop: a chunk that is not the last, the last one, an empty last one, a refused one, a wrong
length. -/
theorem witness_data : ∃ d : List Byte,
    ((streaming 0x8001 [.ok]).life = .active ∧ (streaming 0x8001 [.ok]).seq.phase = .chunk ∧
        d.length = min 0x8000 (streaming 0x8001 [.ok]).seq.rem ∧ d.length < (streaming 0x8001 [.ok]).seq.rem ∧
        answerAt (streaming 0x8001 [.ok]) 0 = .ok) ∧
      (d.length = min 0x8000 (streaming 0x8000 [.ok]).seq.rem ∧ d.length = (streaming 0x8000 [.ok]).seq.rem ∧
        answerAt (streaming 0x8000 [.ok]) 0 = .ok) ∧
      (([] : List Byte).length = min 0x8000 (streaming 0 [.ok]).seq.rem ∧
        ([] : List Byte).length = (streaming 0 [.ok]).seq.rem) ∧
      (d.length = min 0x8000 (streaming 0x8000 [.fail 1]).seq.rem ∧ (streaming 0x8000 [.fail 1]).csLevel = false ∧
        answerAt (streaming 0x8000 [.fail 1]) 0 = .fail 1) ∧
      (started []).life = .active ∧ (started []).seq.phase ≠ .chunk ∧
      d.length ≠ min 0x8000 (streaming 0x7FFF []).seq.rem :=
  ⟨List.replicate 0x8000 0, by rw [List.length_replicate]; decide +kernel⟩

/-- SetRotationSendsThenCommits, SetRotationTableReplacesOrKeeps: an entry and the byte it gives. -/
theorem witness_rotation :
    Ready (withMadctl 0xFF [.ok]) ∧ [Params.defaultVendorTable.e0, Params.defaultVendorTable.e1,
        Params.defaultVendorTable.e2, Params.defaultVendorTable.e3][(3 : BitVec 2).toNat]? =
          some ⟨0xA0, 536, 240, 0, 0⟩ ∧ (withMadctl 0xFF [.ok]).rt = Params.defaultVendorTable ∧
      (0xBF : Byte) = ((withMadctl 0xFF [.ok]).madctl &&& 0x1F) ||| 0xA0 ∧
      [zeroTable.e0, zeroTable.e1, zeroTable.e2, zeroTable.e3][(3 : BitVec 2).toNat]? = some ⟨0, 0, 0, 0, 0⟩ := by
  decide +kernel

/-- SetWindowSendsOrDrops: the largest window, one column too many, and the second frame refused. -/
theorem witness_set_window :
    Ready (started (oks 2)) ∧ BusOk (started (oks 2)) 2 ∧
      ((0 : Half).toNat ≤ (239 : Half).toNat ∧ (239 : Half).toNat < (started (oks 2)).width.toNat ∧
        (0 : Half).toNat ≤ (535 : Half).toNat ∧ (535 : Half).toNat < (started (oks 2)).height.toNat) ∧
      ¬ (240 : Half).toNat < (started (oks 2)).width.toNat ∧
      answerAt (started [.ok, .fail 4]) 0 = .ok ∧ answerAt (started [.ok, .fail 4]) 1 = .fail 4 := by decide +kernel

/-- SetPixelFormatSendsThenCommits: the three depths and one between. -/
theorem witness_set_pixel_format :
    ((16 : Int), Depth.bpp16, (0x75 : Byte)) ∈
        [((16 : Int), Depth.bpp16, (0x75 : Byte)), (18, .bpp18, 0x76), (24, .bpp24, 0x77)] ∧
      (17 : Int) ≠ 16 ∧ (17 : Int) ≠ 18 ∧ (17 : Int) ≠ 24 := by decide

/-- SetColorSpaceSendsThenCommits: the two integers are told apart, and a third. -/
theorem witness_set_color_space :
    (started (oks 1)).cfg.codeRgb ≠ (started (oks 1)).cfg.codeBgr ∧ (2 : Int) ≠ (started (oks 1)).cfg.codeRgb ∧
      (2 : Int) ≠ (started (oks 1)).cfg.codeBgr := by decide +kernel

/-- BrightnessClampsThenMaps: the ends of the range and of the operand. -/
theorem witness_brightness :
    (0 : I32).toInt ≤ 0 ∧ 100 ≤ (100 : I32).toInt ∧ (100 : I32).toInt ≤ 100 ∧ (0x80000000 : I32).toInt ≤ 0 ∧
      100 ≤ (0x7FFFFFFF : I32).toInt ∧ (99 : I32).toInt = (((98 : Fin 99).val : Nat) : Int) + 1 ∧
      (started []).cfg.brightMap = Params.standard.brightMap :=
  ⟨by decide, by decide, by decide, by decide, by decide, by decide, rfl⟩

/-- FailedFrameCommitsNothing: an operation that sends one frame. -/
theorem witness_one_frame : oneFrame (started [.fail 0]) (.setRotation 1) = some (0x36, [0x60]) := by decide +kernel

/-- PixelDrawsItsWindow: the last pixel of the panel, one column off it, both values of `P_STREAM_AFTER_DROP`. -/
theorem witness_pixel :
    (239 : Half).toNat < (started (oks 4)).width.toNat ∧ (535 : Half).toNat < (started (oks 4)).height.toNat ∧
      ¬ (240 : Half).toNat < (started (oks 4)).width.toNat ∧ (afterDrop .skip []).cfg.streamAfterDrop = .skip ∧
      (afterDrop .send (oks 2)).cfg.streamAfterDrop = .send ∧ BusOk (afterDrop .send (oks 2)) 2 := by decide +kernel

/-- FillStreamsTheWholePanel: a panel of one pixel, and one of none. -/
theorem witness_fill : ∃ s : State,
    Ready s ∧ 0 < s.width.toNat ∧ 0 < s.height.toNat ∧
      BusOk s (chunkCount (rep (col2 s.cfg 0x001F) (s.width.toNat * s.height.toNat)).length + 3) ∧
      (State.reset.width = 0 ∨ State.reset.height = 0) :=
  ⟨{ started (oks 4) with width := 1, height := 1 }, by decide +kernel⟩

/-- FillRectDrawsTheClippedRectangle: clipped to one pixel, and to none. -/
theorem witness_fill_rect :
    Ready (started (oks 4)) ∧ 1 = min (20 : Half).toNat ((started (oks 4)).width.toNat - (239 : Half).toNat) ∧
      1 = min (20 : Half).toNat ((started (oks 4)).height.toNat - (535 : Half).toNat) ∧
      BusOk (started (oks 4)) (chunkCount (rep (col2 Params.standard 0x1234) (1 * 1)).length + 3) ∧
      0 = min (20 : Half).toNat ((started (oks 4)).width.toNat - (240 : Half).toNat) := by decide +kernel

/-- HlineDrawsTheClippedRow, VlineDrawsTheClippedColumn: length 1 on the last row or column, one row or column off
the panel under both choices, length 0. -/
theorem witness_lines :
    1 = min (10 : Half).toNat ((started (oks 4)).width.toNat - (239 : Half).toNat) ∧
      1 = min (10 : Half).toNat ((started (oks 4)).height.toNat - (535 : Half).toNat) ∧
      BusOk (started (oks 4)) (chunkCount (rep (col2 Params.standard 0x1234) 1).length + 3) ∧
      (afterDrop .skip []).height.toNat ≤ (536 : Half).toNat ∧ (afterDrop .send []).width.toNat ≤ (240 : Half).toNat ∧
      BusOk (afterDrop .send (oks 2)) (chunkCount (rep (col2 Params.standard 0x1234) 1).length + 1) ∧
      0 = min (0 : Half).toNat ((started (oks 4)).width.toNat - (239 : Half).toNat) := by decide +kernel

/-- BitmapStreamsTheBufferAtTheGaps: one pixel in the last place the gaps allow, one beyond, a short buffer, an empty
rectangle. -/
theorem witness_bitmap : ∃ s : State,
    Ready s ∧ 2 = ((238 : Half).toNat - (237 : Half).toNat) * ((533 : Half).toNat - (532 : Half).toNat) *
        (if s.bpp = .bpp16 then 2 else 3) ∧
      (238 : Half).toNat + s.xGap.toNat ≤ s.width.toNat ∧ (533 : Half).toNat + s.yGap.toNat ≤ s.height.toNat ∧
      BusOk s (chunkCount 2 + 3) ∧ 2 ≤ ([0x12, 0x34] : List Byte).length ∧ ([0x12] : List Byte).length < 2 ∧
      ¬ (239 : Half).toNat + s.xGap.toNat ≤ s.width.toNat ∧ (237 : Half).toNat ≤ (237 : Half).toNat :=
  ⟨{ started (oks 4) with xGap := 2, yGap := 3 }, by decide +kernel⟩

/-- FailedDrawingStopsAtTheRefusedFrame: the window is taken, the priming frame or the data frame refused. -/
theorem witness_failed_stream :
    Ready (started [.ok, .ok, .fail 6]) ∧ BusOk (started [.ok, .ok, .fail 6]) 2 ∧
      answerAt (started [.ok, .ok, .fail 6]) 2 = .fail 6 ∧
      BusOk (started [.ok, .ok, .ok, .fail 6]) 3 ∧ answerAt (started [.ok, .ok, .ok, .fail 6]) 3 = .fail 6 ∧
      (0 : Half).toNat < (started [.ok, .ok, .fail 6]).width.toNat := by decide +kernel

/-- The same: the RASET of a rectangle's second line is refused. -/
theorem witness_failed_line :
    draws (started (oks 5 ++ [.fail 6])) (.rect 0 0 3 2 0x1234) =
        [⟨0, 0, 2, 0, rep [0x12, 0x34] 3⟩] ++
          ⟨0, 1, 2, 1, rep [0x12, 0x34] 3⟩ :: [⟨0, 0, 0, 1, rep [0x12, 0x34] 2⟩, ⟨2, 0, 2, 1, rep [0x12, 0x34] 2⟩] ∧
      Draw.frames ⟨0, 0, 2, 0, rep [0x12, 0x34] 3⟩ (started (oks 5 ++ [.fail 6])) = 4 ∧
      1 < Draw.frames ⟨0, 1, 2, 1, rep [0x12, 0x34] 3⟩ (started (oks 5 ++ [.fail 6])) ∧
      BusOk (started (oks 5 ++ [.fail 6])) (4 + 1) ∧ answerAt (started (oks 5 ++ [.fail 6])) (4 + 1) = .fail 6 := by
  decide +kernel

/-- RectIsItsFourLines: the smallest rectangle drawn, and one of no pixels; a row at, left of and inside the edges. -/
theorem witness_rect :
    Ready (started (oks 28)) ∧ BusOk (started (oks 28)) 28 ∧ 0 < (1 : Half).toNat ∧
      (240 : Int) = (started []).width.toNat ∧ (240 : Int) ≤ 240 ∧ (239 : Int) < 240 ∧
      (535 : Int) < (started []).height.toNat ∧ ((started []).height.toNat : Int) ≤ 536 ∧ (-1 : Int) < 0 := by
  decide +kernel

/-- CircleDrawsItsPoints, FillCircleDrawsItsColumns: radius 0, and a negative one. -/
theorem witness_circles :
    Ready (started (oks 32)) ∧ 0 ≤ (0 : I32).toInt ∧ (-1 : I32).toInt < 0 ∧
      BusOk (started (oks 32)) (4 * (circlePoints 50 60 0).length) ∧
      BusOk (started (oks 32)) ((circleSpans 50 60 0).map fun q =>
        drawAsks (pixels (started (oks 32)) 0x1234 (min q.2.2 ((started []).height.toNat - q.2.1)))).sum := by
  decide +kernel

/-- CirclePointsAreSymmetric: a point of a circle. -/
theorem witness_circle_point : ((3, 4) : Int × Int) ∈ circlePoints 0 0 5 := by decide +kernel

/-- ConstructGivesEveryFieldItsValue, FailedConstructCreatesNothing: power-on and supported values; then each refusal. -/
theorem witness_construct :
    State.reset.life = .unbound ∧ State.reset.seq.phase = .idle ∧ Params.standard.codeRgb ≠ Params.standard.codeBgr ∧
      ((1 : Int), ColorSpace.bgr) ∈ [(Params.standard.codeRgb, ColorSpace.rgb), (Params.standard.codeBgr, .bgr)] ∧
      (Params.standard.nativeW, Params.standard.nativeH) ∈ [((240 : Half), (536 : Half)), (536, 240)] ∧
      BusOk (poweredOn (oks 2)) 2 ∧ answerAt (poweredOn [.fail 3]) 0 = .fail 3 ∧
      answerAt (poweredOn [.ok, .fail 9]) 0 = .ok ∧ answerAt (poweredOn [.ok, .fail 9]) 1 = .fail 9 ∧
      (started []).life ≠ .unbound ∧ (5 : Int) ≠ Params.standard.codeRgb ∧ (5 : Int) ≠ Params.standard.codeBgr ∧
      (15 : Int) ≠ 16 ∧ (15 : Int) ≠ 18 ∧ (15 : Int) ≠ 24 := by decide +kernel

/-- DeinitReleasesOnce, ReleasedIsFinal: an object that was released. -/
theorem witness_deinit :
    { started [] with life := .released, busClaimed := false : State }.life = .released ∧
      { started [] with life := .released, busClaimed := false : State }.seq.phase = .idle ∧
      (started []).life = .active ∧ State.reset.life = .unbound := by decide

/-- ResetPulsesThePin: with a pin, without one under either value of `RESET_NO_PIN`. -/
theorem witness_reset :
    Ready (started []) ∧ (started []).rstPresent = true ∧ (started []).cfg.resetNoPin = .noop ∧
      Ready (softReset [.frame 0x01 [], .delay 5] [.ok]) ∧ (softReset [] []).rstPresent = false ∧
      (softReset [] []).cfg.swResetSteps = [] ∧ ([] : List Byte).length ≤ Config.busMax ∧
      (softReset [] []).cfg.resetNoPin = .swreset ∧
      (softReset [.frame 0x01 [], .delay 5] [.ok]).cfg.swResetSteps = [.frame 0x01 [], .delay 5] ∧
      answerAt (softReset [.frame 0x01 [], .delay 5] [.ok]) 0 = .ok ∧
      answerAt (softReset [.frame 0x01 [], .delay 5] [.fail 2]) 0 = .fail 2 := by
  decide +kernel

/-- InitSendsTheDefaultSequence: every frame taken, or the last refused. -/
theorem witness_init :
    (BusOk (started [.ok, .ok, .ok, .fail 3]) 3 ∧ answerAt (started [.ok, .ok, .ok, .fail 3]) 3 = .fail 3) ∧
    Ready (started (oks 4)) ∧ BusOk (started (oks 4)) 4 ∧
      (started (oks 4)).cfg.initSeq =
        [.frame (started (oks 4)).cfg.opSlpout [], .delay Config.slpoutUs, .sendColmod, .sendMadctl,
          .frame (started (oks 4)).cfg.opDispon []] :=
  ⟨by decide +kernel, by decide, by decide +kernel, rfl⟩

/-- SuccessfulInitSynchronisesTheGhosts. -/
theorem witness_init_done : ∃ t, exec .init (started (oks 4)) = .next t ∧ t.result = some .done := ⟨_, test_init, rfl⟩

/-- A state with a request that begins a colour transfer. -/
def requesting : State := { started (oks 1) with port := [.frame primeTx 2] }

/-- StepKeepsTheChipSelectLaw, StepKeepsSizeAndFormat, StepKeepsTheBusHeld, TraceOnlyGrows, ParametersNeverChange:
every invariant holds of a state that takes a step. -/
theorem witness_step_invariants :
    ChipSelectLaw requesting ∧ SizeAndFormat requesting ∧ BusHeld requesting ∧
      ∃ t, step requesting = .next t ∧ t.seq.phase = .chunk :=
  ⟨by decide, by decide, by decide, _, rfl, rfl⟩

/-- StepKeepsTheChipSelectLaw: the law also holds of an open transfer. -/
theorem witness_open_transfer :
    ChipSelectLaw { streaming 2 [.ok] with trace := [.cs false, .tx primeTx] } := by decide

/-- MirrorSurvivesEveryOperationButRawOnes, OnlyItsWritersChangeARegister. -/
theorem witness_mirror_ok :
    MirrorOk (started (oks 1)) ∧ sendsRaw (.setRotation 1) = false ∧ Register.format ∉ writes (.setRotation 1) ∧
      Register.ghosts ∉ writes .dispOn ∧ ∃ t, exec (.setRotation 1) (started (oks 1)) = .next t :=
  ⟨by decide, rfl, by decide, by decide, _, rfl⟩

/-- RawMadctlDivergesUntilRepaired: the raw byte is not the mirror's. -/
theorem witness_raw_madctl : Ready (started (oks 2)) ∧ BusOk (started (oks 2)) 2 ∧ (0x60 : Byte) ≠ (started []).madctl := by
  decide +kernel

/-- InactiveObjectRefusesOperations: power-on, any operation but the two. -/
theorem witness_inactive :
    State.reset.life ≠ .active ∧ State.reset.seq.phase = .idle ∧ Instr.init ≠ .deinit ∧
      ∀ h rst rl k b, Instr.init ≠ .construct h rst rl k b :=
  ⟨by decide, rfl, by decide, by intros; exact Instr.noConfusion⟩

/-- NoOutcomeDependsOnGhostsOrWindow: two states whose ghosts differ, two whose windows differ. -/
theorem witness_ghosts : SameButGhosts (started []) { started [] with txMadctl := none, txColmod := some 0x77 } ∧
    (started []).txMadctl ≠ none ∧ SameButWindow (started []) { started [] with win := some ⟨0, 0, 1, 2⟩ } ∧
    (started []).win ≠ some ⟨0, 0, 1, 2⟩ :=
  ⟨rfl, by decide, rfl, by decide⟩

/-- AddressPhaseHoldsTheCommand: the least and the default width. -/
theorem witness_address_phase : 16 ≤ 16 ∧ 16 ≤ Params.standard.addrBits := by decide

/-- OpenTransferRefusesOtherOperations. -/
theorem witness_overlap : (streaming 2 []).seq.phase ≠ .idle ∧ ∀ d, Instr.width ≠ .data d :=
  ⟨by decide, by intros; exact Instr.noConfusion⟩

end Sys2Proof.Tests
end

section
/-! The address phase of the frames that carry a panel command (20_memory.md R64). -/

namespace Sys2Proof

/-- A command shifted left 8 bits is below `2 ^ 16`, so a phase of 16 bits or more cuts nothing off. -/
theorem addrOf_value {n : Nat} (hn : 16 ≤ n) (c : Byte) : (addrOf n c).value = c.toNat * 256 := by
  have hc : c.toNat * 256 < 2 ^ 16 := by have := c.isLt; omega
  have hfit : c.toNat * 256 < 2 ^ n := hc.trans_le (Nat.pow_le_pow_right two_pos hn)
  exact Nat.mod_eq_of_lt hfit

/-- The command in bits 15..8, zeros below and above. -/
theorem addrOf_holds_only_the_command {n : Nat} (hn : 16 ≤ n) (c : Byte) :
    (addrOf n c).value / 256 = c.toNat ∧ (addrOf n c).value % 256 = 0 ∧ (addrOf n c).value < 2 ^ 16 := by
  have := c.isLt
  rw [addrOf_value hn]
  omega

/-- Settles O60: both frames carry an `addrOf`, of the command given and of RAMWR. -/
theorem addressPhaseHoldsTheCommand : Obligations.AddressPhaseHoldsTheCommand := by
  intro P n c p hn
  obtain ⟨hcmd, hlow, hhigh⟩ := addrOf_holds_only_the_command hn c
  obtain ⟨hcmd', hlow', hhigh'⟩ := addrOf_holds_only_the_command hn P.opRamwr
  exact ⟨addrOf n c, addrOf n P.opRamwr, rfl, rfl, rfl, rfl, hcmd, hcmd', hlow, hlow', hhigh, hhigh'⟩

end Sys2Proof
end

section
/-! The coordinate block of CASET and RASET (30_encoding.md R95) and the frames that carry it. -/

namespace Sys2Proof

/-! ### The two bytes of a coordinate -/

theorem hi_toNat (v : Half) : (hi v).toNat = v.toNat / 256 := by
  have := v.isLt
  simp only [hi, BitVec.extractLsb'_toNat, Nat.shiftRight_eq_div_pow]
  omega

theorem lo_toNat (v : Half) : (lo v).toNat = v.toNat % 256 := by
  simp [lo, BitVec.extractLsb'_toNat]

theorem hi_lo_toNat (v : Half) : (hi v).toNat * 256 + (lo v).toNat = v.toNat := by
  rw [hi_toNat, lo_toNat]
  exact Nat.div_add_mod' v.toNat 256

/-- At most eight bits are kept, so the mask is a byte and nothing of it is cut off. -/
theorem coordHiMask_toNat {P : Params} (hle : P.coordBits ≤ 16) :
    (coordHiMask P).toNat = 2 ^ (P.coordBits - 8) - 1 := by
  have hpow : 2 ^ (P.coordBits - 8) ≤ 2 ^ 8 := Nat.pow_le_pow_right two_pos (by omega)
  have hpos : 0 < 2 ^ (P.coordBits - 8) := Nat.two_pow_pos _
  exact Nat.mod_eq_of_lt (by omega)

/-- A coordinate below `2 ^ COORD_BITS` is read back from its masked high byte and its low byte. -/
theorem maskedHi_lo_toNat {P : Params} (hge : 10 ≤ P.coordBits) (hle : P.coordBits ≤ 16) {v : Half}
    (hv : v.toNat < 2 ^ P.coordBits) : (hi v &&& coordHiMask P).toNat * 256 + (lo v).toNat = v.toNat := by
  have hfits : coordFits P v = true := decide_eq_true hv
  rw [coordHiMask_fits hge hle hfits, hi_lo_toNat]

end Sys2Proof

namespace Sys2Proof.Machine

open Sys2Proof.Safety

/-! ### The frames that carry the block -/

/-- SUBMIT_COMMAND emits its one bracket whether the bus takes the frame or refuses it. -/
theorem submitCommand_trace {s : State} (h : Ready s) (c : Byte) (p : List Byte) (hp : p.length ≤ Config.busMax) :
    (submitCommand c p s).1.trace = s.trace ++ bracket (commandFrame s.cfg s.bus.addrBits c p) := by
  cases hb : answerAt s 0 with
  | ok => rw [submitCommand_ok h hb c p hp, sentCommand_trace]
  | fail st => rw [submitCommand_fail h hb c p hp, failedCommand_trace]

/-- The same for an operation that is one SUBMIT_COMMAND. -/
theorem runOp_submitCommand_trace {s : State} (h : Ready s) (c : Byte) (p : List Byte)
    (hp : p.length ≤ Config.busMax) :
    ∃ t, runOp (submitCommand c p) s = .next t ∧
      t.trace = s.trace ++ bracket (commandFrame s.cfg s.bus.addrBits c p) :=
  ⟨_, runOp_idle h.2, submitCommand_trace h c p hp⟩

theorem coord4_length_le_busMax (P : Params) (a b : Half) : (coord4 P a b).length ≤ Config.busMax := by
  simp [Config.busMax]

theorem exec_caset (x0 x1 : Half) (s : State) :
    exec (.caset x0 x1) s = runOp (submitCommand s.cfg.opCaset (coord4 s.cfg x0 x1)) s := rfl

theorem exec_raset (y0 y1 : Half) (s : State) :
    exec (.raset y0 y1) s = runOp (submitCommand s.cfg.opRaset (coord4 s.cfg y0 y1)) s := rfl

/-- Settles O8: the bytes by the arithmetic of one coordinate, the frames by what one SUBMIT_COMMAND emits. -/
theorem coordinatesAreBigEndianMasked : Obligations.CoordinatesAreBigEndianMasked := by
  intro P a b ⟨_, _, hge, hle, _⟩
  have hmasked (v : Half) : (hi v &&& coordHiMask P).toNat = v.toNat / 256 % 2 ^ (P.coordBits - 8) := by
    rw [coordHiMask_and hge hle, hi_toNat]
  refine ⟨⟨coordHiMask_toNat hle, _, _, _, _, rfl, hmasked a, lo_toNat a, hmasked b, lo_toNat b,
    maskedHi_lo_toNat hge hle, maskedHi_lo_toNat hge hle⟩, ?_⟩
  rintro s hready rfl
  have hlen := coord4_length_le_busMax s.cfg a b
  obtain ⟨t, hcaset, htraceC⟩ := runOp_submitCommand_trace hready s.cfg.opCaset _ hlen
  obtain ⟨u, hraset, htraceR⟩ := runOp_submitCommand_trace hready s.cfg.opRaset _ hlen
  exact ⟨t, u, (exec_caset a b s).trans hcaset, htraceC, (exec_raset a b s).trans hraset, htraceR⟩

end Sys2Proof.Machine
end

section
/-! The laws of the chunker (40_bus_transport.md R122). -/

namespace Sys2Proof.Machine

/-! ### The number of chunks -/

/-- The chunks are enough for the payload. -/
theorem le_chunkCount_mul (L : Nat) : L ≤ chunkCount L * Config.busMax := by
  simp only [chunkCount, Config.busMax]
  omega

/-- The chunks before the last are not enough for a payload that is not empty. -/
theorem chunkCount_pred_mul_lt {L : Nat} (hL : 0 < L) : (chunkCount L - 1) * Config.busMax < L := by
  simp only [chunkCount, Config.busMax]
  omega

/-! ### One chunk -/

theorem chunkSize_le_busMax (L k : Nat) : chunkSize L k ≤ Config.busMax := Nat.min_le_left _ _

theorem chunkSize_of_not_last {L k : Nat} (h : k + 1 < chunkCount L) : chunkSize L k = Config.busMax :=
  Nat.min_eq_left (full_of_not_last h).le

theorem chunkSize_last (L : Nat) : chunkSize L (chunkCount L - 1) = L - (chunkCount L - 1) * Config.busMax :=
  Nat.min_eq_right (last_takes_rest (Nat.sub_add_cancel (chunkCount_pos L)))

/-- A chunk is the next `BUS_MAX` bytes, as far as there are so many. -/
theorem chunk_eq_take_drop (p : List Byte) (k : Nat) :
    chunk p k = (p.drop (k * Config.busMax)).take Config.busMax := by
  rw [chunk, slice, chunkSize, ← List.length_drop, ← List.take_eq_take_min]

/-! ### The list of chunks -/

@[simp] theorem chunks_length (p : List Byte) : (chunks p).length = chunkCount p.length := by simp [chunks]

theorem mem_chunks {p d : List Byte} : d ∈ chunks p ↔ ∃ k < chunkCount p.length, chunk p k = d := by simp [chunks]

theorem chunks_getElem? {p : List Byte} {k : Nat} (h : k < chunkCount p.length) :
    (chunks p)[k]? = some (chunk p k) := by
  simp [chunks, h]

theorem chunks_getLast? (p : List Byte) : (chunks p).getLast? = some (chunk p (chunkCount p.length - 1)) := by
  rw [List.getLast?_eq_getElem?, chunks_length, chunks_getElem? (Nat.sub_lt (chunkCount_pos _) one_pos)]

/-- The first `n` chunks are the payload's first `n * BUS_MAX` bytes. -/
theorem flatten_map_chunk_range (p : List Byte) (n : Nat) :
    ((List.range n).map (chunk p)).flatten = p.take (n * Config.busMax) := by
  induction n with
  | zero => simp
  | succ n ih =>
    calc ((List.range (n + 1)).map (chunk p)).flatten
        = ((List.range n).map (chunk p)).flatten ++ chunk p n := by simp [List.range_succ]
      _ = p.take (n * Config.busMax) ++ (p.drop (n * Config.busMax)).take Config.busMax := by
          rw [ih, chunk_eq_take_drop]
      _ = p.take ((n + 1) * Config.busMax) := by rw [← List.take_add, Nat.succ_mul]

/-- Law (e). -/
theorem chunks_flatten (p : List Byte) : (chunks p).flatten = p :=
  (flatten_map_chunk_range p _).trans (List.take_of_length_le (le_chunkCount_mul _))

/-- Law (a), from law (e). -/
theorem chunks_length_sum (p : List Byte) : ((chunks p).map List.length).sum = p.length := by
  rw [← List.length_flatten, chunks_flatten]

/-- Law (b). -/
theorem length_le_of_mem_chunks {p d : List Byte} (h : d ∈ chunks p) : d.length ≤ Config.busMax := by
  obtain ⟨k, -, rfl⟩ := mem_chunks.mp h
  exact (chunk_length p k).trans_le (chunkSize_le_busMax _ _)

/-- Law (c). -/
theorem chunks_full_before_last {p : List Byte} {k : Nat} (h : k + 1 < (chunks p).length) :
    ((chunks p)[k]?).map List.length = some Config.busMax := by
  rw [chunks_length] at h
  rw [chunks_getElem? (Nat.lt_of_succ_lt h), Option.map_some, chunk_length, chunkSize_of_not_last h]

/-- Law (d), the length. -/
theorem chunks_last_length (p : List Byte) :
    (chunks p).getLast?.map List.length = some (p.length - ((chunks p).length - 1) * Config.busMax) := by
  rw [chunks_getLast?, Option.map_some, chunk_length, chunkSize_last, chunks_length]

/-- Law (d), the range: the last chunk of a payload that is not empty holds a byte. -/
theorem chunks_last_ne_nil {p : List Byte} (hp : p ≠ []) : ∃ d, (chunks p).getLast? = some d ∧ d ≠ [] := by
  refine ⟨_, chunks_getLast? p, List.ne_nil_of_length_pos ?_⟩
  rw [chunk_length, chunkSize_last]
  exact Nat.sub_pos_of_lt (chunkCount_pred_mul_lt (List.length_pos_iff.mpr hp))

/-- Settles O10: the first `n` chunks are the first `n * BUS_MAX` bytes, and `chunkCount` is the least number, from 1 on,
that reaches the payload's end. -/
theorem chunksPartitionThePayload : Obligations.ChunksPartitionThePayload := fun p =>
  ⟨chunks_length p, chunks_flatten p, chunks_length_sum p, fun _ => length_le_of_mem_chunks,
    fun _ => chunks_full_before_last, chunks_last_length p, chunks_last_ne_nil⟩

end Sys2Proof.Machine
end

section
/-! Which operation each instruction runs, and everything an `exec` or a `step` that gives a next state has done. -/

namespace Sys2Proof.Machine

/-- The operation behind each arm of the dispatch: under parameters `P`, before its result is recorded. -/
def operation (P : Params) : Instr → Op
  | .submitCommand cmd p => submitCommand cmd p
  | .submitColor p => submitColor p
  | .setRotation i => setRotation i
  | .setRotationTable i t => setRotationTable i t
  | .setWindow x0 y0 x1 y1 => setWindow (int x0) (int y0) (int x1) (int y1)
  | .setPixelFormat b => setPixelFormat b
  | .setColorSpace k => setColorSpace k
  | .sendCmd cmd c n => sendCmd cmd c n
  | .mirror mx my => mirror mx my
  | .swapXy sw => swapXy sw
  | .setGap gx gy => setGap gx gy
  | .invertColor v => submitCommand (if v then P.opInvon else P.opInvoff) []
  | .dispOn => submitCommand P.opDispon []
  | .dispOff => submitCommand P.opDispoff []
  | .backlightOn => submitCommand P.opWrdisbv [Config.brightByteMax]
  | .backlightOff => submitCommand P.opWrdisbv [Config.brightByteMin]
  | .brightness b => brightness b.toInt
  | .width => requireActive fun s => (s, .value s.width)
  | .height => requireActive fun s => (s, .value s.height)
  | .vscrollArea tfa vsa bfa => vscrollArea tfa vsa bfa
  | .vscrollStart off wrap => vscrollStart off wrap
  | .pixel x y c => pixel (int x) (int y) c
  | .fill c => fill c
  | .fillRect x y w h c => fillRect (int x) (int y) (int w) (int h) c
  | .hline x y w c => hline (int x) (int y) (int w) c
  | .vline x y h c => vline (int x) (int y) (int h) c
  | .bitmap x0 y0 x1 y1 buf => bitmap x0 y0 x1 y1 buf
  | .rect x y w h c => rect x y w h c
  | .circle xm ym r c => circle xm.toInt ym.toInt r.toInt c
  | .fillCircle xm ym r c => fillCircle xm.toInt ym.toInt r.toInt c
  | .construct h rst rl k b => construct h rst rl k b
  | .deinit => deinit
  | .reset => resetPanel
  | .init => init
  | .madctl m => submitCommand P.opMadctl [m]
  | .caset x0 x1 => submitCommand P.opCaset (coord4 P x0 x1)
  | .raset y0 y1 => submitCommand P.opRaset (coord4 P y0 y1)
  | .colmod code => submitCommand P.opColmod [code]
  | .slpin => submitCommand P.opSlpin []
  | .slpout => submitCommand P.opSlpout []
  | .dispon => submitCommand P.opDispon []
  | .dispoff => submitCommand P.opDispoff []
  | .invon => submitCommand P.opInvon []
  | .invoff => submitCommand P.opInvoff []
  | .wrdisbv v => submitCommand P.opWrdisbv [v]
  | .vscrdef tfa vsa bfa => submitCommand P.opVscrdef (be16 tfa ++ be16 vsa ++ be16 bfa)
  | .vscsad off => submitCommand P.opVscsad (be16 off)
  | .ramwr len => openColor len
  | .data d => requireActive (sendChunk d)

/-- Every instruction but DATA opens its own bracket. -/
theorem exec_eq_runOp {i : Instr} (hi : ∀ d, i ≠ .data d) (s : State) :
    exec i s = runOp (operation s.cfg i) s := by
  cases i with
  | data d => exact absurd rfl (hi d)
  | _ => rfl

/-- While the sequencer is IDLE an instruction is its operation. -/
theorem exec_idle {i : Instr} (hi : ∀ d, i ≠ .data d) {s : State} (hs : s.seq.phase = .idle) :
    exec i s = finish (operation s.cfg i s) := by
  rw [exec_eq_runOp hi, runOp_idle hs]

/-- DATA as one trip of the loop, in the transfer it belongs to (41_panel_wire_commands.md R155). -/
theorem exec_data_chunk {s : State} {d : List Byte} (ha : s.life = .active) (hp : s.seq.phase = .chunk)
    (hd : d.length = min Config.busMax s.seq.rem) : exec (.data d) s = finish (sendChunk d s) := by
  show execData d s = _
  rw [execData, if_pos ha, if_pos hp, if_pos hd]

theorem exec_data_outside {s : State} {d : List Byte} (ha : s.life = .active) (hp : s.seq.phase ≠ .chunk) :
    exec (.data d) s = .fault .dataOutsideBracket := by
  show execData d s = _
  rw [execData, if_pos ha, if_neg hp]

theorem exec_data_wrong_length {s : State} {d : List Byte} (ha : s.life = .active) (hp : s.seq.phase = .chunk)
    (hd : d.length ≠ min Config.busMax s.seq.rem) : exec (.data d) s = .fault .notTheNextChunk := by
  show execData d s = _
  rw [execData, if_pos ha, if_pos hp, if_neg hd]

theorem exec_data_inactive {s : State} {d : List Byte} (ha : s.life ≠ .active) :
    exec (.data d) s = finish (s, .refused .notActive) := by
  show execData d s = _
  rw [execData, if_neg ha]

/-- May the operation of `i` begin here? DATA belongs to an open transfer of an ACTIVE object and is refused without
one; every other instruction needs an IDLE sequencer. -/
def Begins (i : Instr) (s : State) : Prop :=
  ((∀ d, i ≠ .data d) ∧ s.seq.phase = .idle) ∨
    ∃ d, i = .data d ∧ (s.life = .active → s.seq.phase = .chunk ∧ d.length = min Config.busMax s.seq.rem)

/-- An instruction that gives a next state has run its operation and recorded the result. -/
theorem exec_next {i : Instr} {s t : State} (h : exec i s = .next t) :
    Begins i s ∧ t = { (operation s.cfg i s).1 with result := some (operation s.cfg i s).2 } := by
  by_cases hi : ∀ d, i ≠ .data d
  · rw [exec_eq_runOp hi, runOp] at h
    split_ifs at h with hs
    exact ⟨.inl ⟨hi, hs⟩, (Host.Outcome.next.inj h).symm⟩
  · push Not at hi
    obtain ⟨d, rfl⟩ := hi
    by_cases ha : s.life = .active
    · by_cases hp : s.seq.phase = .chunk
      · by_cases hd : d.length = min Config.busMax s.seq.rem
        · rw [exec_data_chunk ha hp hd] at h
          refine ⟨.inr ⟨d, rfl, fun _ => ⟨hp, hd⟩⟩, ?_⟩
          rw [show operation s.cfg (.data d) s = sendChunk d s from requireActive_active ha]
          exact (Host.Outcome.next.inj h).symm
        · rw [exec_data_wrong_length ha hp hd] at h
          cases h
      · rw [exec_data_outside ha hp] at h
        cases h
    · rw [exec_data_inactive ha] at h
      refine ⟨.inr ⟨d, rfl, fun h => absurd h ha⟩, ?_⟩
      rw [show operation s.cfg (.data d) s = _ from requireActive_inactive ha]
      exact (Host.Outcome.next.inj h).symm

theorem step_idle {s : State} (h : s.port = []) : step s = .next s := by rw [step, h]

theorem step_decoded {s : State} {item : PortItem} {rest : List PortItem} {i : Instr} (h : s.port = item :: rest)
    (hd : decode s.cfg item = .ok i) : step s = exec i { s with port := rest } := by
  simp only [step, h, hd]

theorem step_rejected {s : State} {item : PortItem} {rest : List PortItem} {e : DecodeError}
    (h : s.port = item :: rest) (hd : decode s.cfg item = .error e) :
    step s = .next { s with port := rest, result := some (refusedBy e) } := by
  simp only [step, h, hd]
  rfl

/-- What the decoder accepts is well-formed. -/
theorem decode_wf {P : Params} {item : PortItem} {i : Instr} (h : decode P item = .ok i) : i.wf P = true := by
  unfold decode at h
  split at h
  · split_ifs at h with hw
    cases h
    exact hw
  · cases h

/-- Everything a step can do: wait, perform a well-formed instruction, or refuse what is none. -/
theorem step_next {s t : State} (h : step s = .next t) :
    t = s ∨ ∃ rest, (∃ i, i.wf s.cfg = true ∧ exec i { s with port := rest } = .next t) ∨
      ∃ r, t = { s with port := rest, result := some r } := by
  cases hp : s.port with
  | nil =>
    rw [step_idle hp] at h
    exact .inl (Host.Outcome.next.inj h).symm
  | cons item rest =>
    refine .inr ⟨rest, ?_⟩
    cases hd : decode s.cfg item with
    | ok i => exact .inl ⟨i, decode_wf hd, step_decoded hp hd ▸ h⟩
    | error e =>
      rw [step_rejected hp hd] at h
      exact .inr ⟨_, (Host.Outcome.next.inj h).symm⟩

/-- A property that no operation loses and that neither the port nor the result decides is kept by every step. -/
theorem step_keeps {I : State → Prop} (hport : ∀ s p r, I s → I { s with port := p, result := r })
    (hexec : ∀ i s t, i.wf s.cfg = true → I s → exec i s = .next t → I t) {s t : State} (hs : I s)
    (h : step s = .next t) : I t := by
  obtain rfl | ⟨rest, ⟨i, hw, he⟩ | ⟨r, rfl⟩⟩ := step_next h
  · exact hs
  · exact hexec i { s with port := rest } t hw (hport s rest s.result hs) he
  · exact hport s rest (some r) hs

end Sys2Proof.Machine
end

section
/-! Frames of whole instructions: the access table of 10_state.md R39, and that the trace only grows. -/

namespace Sys2Proof.Machine

open Sys2Proof.Safety

/-! ### What an operation that writes only certain registers leaves alone -/

/-- The ghosts hold what they held, as far as admissible command numbers tell their frames from others. -/
def SameGhosts (s t : State) : Prop := s.cfg.Ok → t.txMadctl = s.txMadctl ∧ t.txColmod = s.txColmod

/-- A column of the access table holds what it held. -/
def SameIn : Register → State → State → Prop
  | .life, s, t => t.life = s.life ∧ t.busClaimed = s.busClaimed ∧ t.bus = s.bus
  | .madctl, s, t => t.madctl = s.madctl
  | .format, s, t => t.colmod = s.colmod ∧ t.bpp = s.bpp
  | .colorSpace, s, t => t.colorSpace = s.colorSpace
  | .rotation, s, t => t.rotation = s.rotation ∧ t.width = s.width ∧ t.height = s.height
  | .gaps, s, t => t.xGap = s.xGap ∧ t.yGap = s.yGap
  | .table, s, t => t.rt = s.rt
  | .window, s, t => t.win = s.win
  | .ghosts, s, t => SameGhosts s t
  | .resetPin, s, t => t.rstPresent = s.rstPresent ∧ t.rstActive = s.rstActive ∧ t.rstLevel = s.rstLevel

/-- `t` is a later state than `s`, in which no register outside `W` was written. -/
structure Within (W : List Register) (s t : State) : Prop where
  cfg : t.cfg = s.cfg
  trace : ∃ es, t.trace = s.trace ++ es
  same : ∀ r ∉ W, SameIn r s t

@[simp] theorem sameGhosts_of_eq {s t : State} (h : t.txMadctl = s.txMadctl ∧ t.txColmod = s.txColmod) :
    SameGhosts s t := fun _ => h

theorem SameIn.refl (r : Register) (s : State) : SameIn r s s := by cases r <;> simp [SameIn]

theorem SameIn.trans {r : Register} {s t u : State} (hc : t.cfg = s.cfg) (h : SameIn r s t) (h' : SameIn r t u) :
    SameIn r s u := by
  cases r with
  | ghosts =>
    intro hok
    obtain ⟨hm, hf⟩ := h hok
    obtain ⟨hm', hf'⟩ := h' (hc ▸ hok)
    exact ⟨hm'.trans hm, hf'.trans hf⟩
  | _ =>
    simp only [SameIn] at h h' ⊢
    simp [h, h']

variable {W : List Register} {s t u : State}

theorem Within.refl (W : List Register) (s : State) : Within W s s :=
  ⟨rfl, ⟨[], by simp⟩, fun r _ => SameIn.refl r s⟩

theorem Within.trans (h : Within W s t) (h' : Within W t u) : Within W s u := by
  obtain ⟨es, he⟩ := h.trace
  obtain ⟨es', he'⟩ := h'.trace
  exact ⟨h'.cfg.trans h.cfg, ⟨es ++ es', by rw [he', he, List.append_assoc]⟩,
    fun r hr => (h.same r hr).trans h.cfg (h'.same r hr)⟩

theorem Within.mono {V : List Register} (h : Within V s t) (hV : V ⊆ W) : Within W s t :=
  ⟨h.cfg, h.trace, fun r hr => h.same r fun hv => hr (hV hv)⟩

theorem Within.withResult (h : Within W s t) (r : Option Result) : Within W s { t with result := r } :=
  ⟨h.cfg, h.trace, fun q hq => by have := h.same q hq; cases q <;> exact this⟩

/-- A write of registers in `W` alone. -/
theorem Within.write (hc : t.cfg = s.cfg) (ht : t.trace = s.trace) (h : ∀ r ∉ W, SameIn r s t) : Within W s t :=
  ⟨hc, ⟨[], by simp [ht]⟩, h⟩

theorem Streams.within (h : Streams s t) : Within [] s t := by
  obtain ⟨es, l, q, a, n, rfl⟩ := h
  exact ⟨rfl, ⟨es, rfl⟩, fun r _ => by cases r <;> simp [SameIn]⟩

theorem Transmits.within (h : Transmits s t) : Within [.ghosts] s t := by
  obtain ⟨es, l, q, a, n, tm, tc, rfl⟩ := h
  exact ⟨rfl, ⟨es, rfl⟩, fun r hr => by cases r <;> simp [SameIn] at hr ⊢⟩

theorem Draws.within (h : Draws s t) : Within [.window] s t := by
  obtain ⟨es, l, q, a, n, w, rfl⟩ := h
  exact ⟨rfl, ⟨es, rfl⟩, fun r hr => by cases r <;> simp [SameIn] at hr ⊢⟩

theorem within_requireActive {op : Op} (h : ∀ s, Within W s (op s).1) (s : State) :
    Within W s (requireActive op s).1 :=
  requireActive_rel (R := Within W) (Within.refl W) h s

/-! ### Command frames -/

theorem submitCommand_within (c : Byte) (p : List Byte) (s : State) :
    Within [.ghosts] s (submitCommand c p s).1 := (submitCommand_transmits c p s).within

/-- A frame that under admissible parameters carries no mirrored register writes nothing of the access table. -/
theorem submitCommand_within_nil {c : Byte} {p : List Byte} {s : State}
    (h : s.cfg.Ok → p.length ≠ 1 ∨ (c ≠ s.cfg.opMadctl ∧ c ≠ s.cfg.opColmod)) :
    Within [] s (submitCommand c p s).1 := by
  by_cases hok : s.cfg.Ok
  · exact (submitCommand_streams (h hok)).within
  · obtain ⟨hc, ht, hs⟩ := submitCommand_within c p s
    refine ⟨hc, ht, fun r _ => ?_⟩
    cases r with
    | ghosts => exact fun h => absurd h hok
    | _ => exact hs _ (by simp)

/-- WRDISBV is no mirrored register. -/
theorem submitCommand_wrdisbv_within (v : Byte) (s : State) :
    Within [] s (submitCommand s.cfg.opWrdisbv [v] s).1 :=
  submitCommand_within_nil fun h => .inr h.wrdisbv_ne

/-- A frame without parameter bytes, or with two or more, moves no ghost. -/
theorem submitCommand_long_within {c : Byte} {p : List Byte} (hp : p.length ≠ 1) (s : State) :
    Within [] s (submitCommand c p s).1 := submitCommand_within_nil fun _ => .inl hp

/-- A frame and then, when it was taken, a write of the mirror. -/
theorem commit_within (hW : .ghosts ∈ W) (c : Byte) (p : List Byte) {k : Op} (hk : ∀ t, Within W t (k t).1)
    (s : State) :
    Within W s (andThen (submitCommand c p s) k).1 :=
  andThen_rel (R := Within W) (fun _ _ _ => Within.trans) ((submitCommand_within c p s).mono (by simpa using hW)) hk

/-! ### The operations that write the mirror -/

theorem setRotation_within (i : BitVec 2) (s : State) :
    Within [.madctl, .rotation, .gaps, .ghosts] s (setRotation i s).1 := by
  refine within_requireActive (fun s => commit_within (by simp) _ _ (fun t => ?_) s) s
  exact .write rfl rfl fun r hr => by cases r <;> simp [SameIn] at hr ⊢

/-- The table is put back or is the new one; the rest is SET_ROTATION. -/
theorem setRotationTable_within (i : BitVec 2) (t : RotTable) (s : State) :
    Within [.madctl, .rotation, .gaps, .table, .ghosts] s (setRotationTable i t s).1 := by
  have hrt (u : State) (r : RotTable) : Within [.madctl, .rotation, .gaps, .table, .ghosts] u { u with rt := r } :=
    .write rfl rfl fun r hr => by cases r <;> simp [SameIn] at hr ⊢
  refine within_requireActive (fun s => ?_) s
  have h := (hrt s t).trans ((setRotation_within i { s with rt := t }).mono (by simp))
  split
  · next s1 st he => exact (he ▸ h).trans (hrt s1 s.rt)
  · exact h

theorem setPixelFormat_within (b : Int) (s : State) : Within [.format, .ghosts] s (setPixelFormat b s).1 := by
  refine within_requireActive (fun s => ?_) s
  split
  · exact .refl _ s
  · refine commit_within (by simp) _ _ (fun t => ?_) s
    exact .write rfl rfl fun r hr => by cases r <;> simp [SameIn] at hr ⊢

theorem setColorSpace_within (k : Int) (s : State) :
    Within [.madctl, .colorSpace, .ghosts] s (setColorSpace k s).1 := by
  refine within_requireActive (fun s => ?_) s
  split
  · exact .refl _ s
  · refine commit_within (by simp) _ _ (fun t => ?_) s
    exact .write rfl rfl fun r hr => by cases r <;> simp [SameIn] at hr ⊢

theorem sendCmd_within (cmd c : Byte) (n : Nat) (s : State) : Within [.ghosts] s (sendCmd cmd c n s).1 := by
  refine within_requireActive (fun s => ?_) s
  split_ifs
  · exact .refl _ s
  · exact submitCommand_within _ _ s
  · exact submitCommand_within _ _ s

theorem sendMadctl_within (m : Byte) (s : State) : Within [.madctl, .ghosts] s (sendMadctl m s).1 :=
  commit_within (by simp) _ _ (fun t => .write rfl rfl fun r hr => by cases r <;> simp [SameIn] at hr ⊢) s

theorem mirror_within (mx my : Bool) (s : State) : Within [.madctl, .ghosts] s (mirror mx my s).1 :=
  within_requireActive (op := fun s => sendMadctl (mirrorMadctl s.cfg s.madctl mx my) s)
    (fun s => sendMadctl_within _ s) s

theorem swapXy_within (sw : Bool) (s : State) : Within [.madctl, .ghosts] s (swapXy sw s).1 :=
  within_requireActive (op := fun s => sendMadctl (writeMask s.madctl s.cfg.madctlMv sw) s)
    (fun s => sendMadctl_within _ s) s

theorem setGap_within (gx gy : Half) (s : State) : Within [.gaps] s (setGap gx gy s).1 :=
  within_requireActive (fun s => .write rfl rfl fun r hr => by cases r <;> simp [SameIn] at hr ⊢) s

theorem brightness_within (b : Int) (s : State) : Within [] s (brightness b s).1 :=
  within_requireActive (op := fun s => submitCommand s.cfg.opWrdisbv [brightMap s.cfg (clampPercent b)] s)
    (fun s => submitCommand_wrdisbv_within _ s) s

theorem vscrollArea_within (tfa vsa bfa : Half) (s : State) : Within [] s (vscrollArea tfa vsa bfa s).1 :=
  within_requireActive (op := fun s => submitCommand s.cfg.opVscrdef (be16 tfa ++ be16 vsa ++ be16 bfa) s)
    (fun s => submitCommand_long_within (by simp) s) s

theorem vscrollStart_within (off : Half) (wrap : Option Bool) (s : State) : Within [] s (vscrollStart off wrap s).1 :=
  within_requireActive (op := fun s => submitCommand s.cfg.opVscsad (be16 (scrollOffset off wrap s)) s)
    (fun s => submitCommand_long_within (by simp) s) s

/-! ### The lifecycle -/

/-- CONSTRUCT writes every column; it adds to the trace and leaves the parameters. -/
theorem within_all {h : BusHandle} {rst : Option Nat} {rl : Bool} {k b : Int} (hc : t.cfg = s.cfg)
    (ht : ∃ es, t.trace = s.trace ++ es) :
    Within (writes (.construct h rst rl k b)) s t :=
  ⟨hc, ht, fun r hr => absurd (by cases r <;> simp [writes]) hr⟩

theorem construct_within (h : BusHandle) (rst : Option Nat) (rl : Bool) (k b : Int) (s : State) :
    Within (writes (.construct h rst rl k b)) s (construct h rst rl k b s).1 := by
  unfold construct
  split_ifs
  · exact .refl _ s
  · split
    · exact .refl _ s
    · exact .refl _ s
    · next c d _ _ =>
      simp only [claim]
      split
      · next he =>
        obtain ⟨-, rfl⟩ := Prod.mk.inj he
        exact within_all rfl ⟨_, rfl⟩
      · next s1 he =>
        obtain ⟨-, rfl⟩ := Prod.mk.inj he
        have hr := setRotation_within 0 (startMirror c d (establishTable (bindBus h rst rl (emit .claim (ask s)))))
        have hbegin : Within (writes (.construct h rst rl k b)) s
            (startMirror c d (establishTable (bindBus h rst rl (emit .claim (ask s))))) :=
          within_all (by simp) ⟨_, by simp; rfl⟩
        have hall := hbegin.trans (hr.mono (by simp [writes]))
        split
        · next s2 st he2 =>
          rw [he2] at hall
          obtain ⟨es, hes⟩ := hall.trace
          have hes : s2.trace = s.trace ++ es := hes
          exact within_all hall.cfg ⟨es ++ [.release], by simp [hes]⟩
        · exact hall

theorem deinit_within (s : State) : Within [.life] s (deinit s).1 := by
  unfold deinit
  split
  · exact .refl _ s
  · exact ⟨rfl, ⟨_, rfl⟩, fun r hr => by cases r <;> simp [SameIn] at hr ⊢⟩
  · exact .refl _ s

theorem resetPanel_within (s : State) : Within [.window, .ghosts, .resetPin] s (resetPanel s).1 := by
  refine within_requireActive (fun s => andThen_rel (R := Within _) (fun _ _ _ => Within.trans) ?_ fun t => ?_) s
  · split_ifs
    · exact ⟨rfl, ⟨_, by simp [resetPulse]; rfl⟩, fun r hr => by
        cases r <;> simp [SameIn, resetPulse] at hr ⊢⟩
    · exact (resetWithoutPin_transmits s).within.mono (by simp)
  · exact .write rfl rfl fun r hr => by cases r <;> simp [SameIn] at hr ⊢

/-! ### Every operation keeps to its row -/

/-- 10_state.md R39, row by row. -/
theorem operation_within (i : Instr) (s : State) : Within (writes i) s (operation s.cfg i s).1 := by
  cases i with
  | submitCommand cmd p => exact submitCommand_within cmd p s
  | submitColor p => exact (submitColor_streams p s).within
  | setRotation i => exact setRotation_within i s
  | setRotationTable i t => exact setRotationTable_within i t s
  | setWindow x0 y0 x1 y1 => exact (setWindow_draws ..).within
  | setPixelFormat b => exact setPixelFormat_within b s
  | setColorSpace k => exact setColorSpace_within k s
  | sendCmd cmd c n => exact sendCmd_within cmd c n s
  | mirror mx my => exact mirror_within mx my s
  | swapXy sw => exact swapXy_within sw s
  | setGap gx gy => exact setGap_within gx gy s
  | invertColor v => exact submitCommand_long_within (by simp) s
  | dispOn => exact submitCommand_long_within (by simp) s
  | dispOff => exact submitCommand_long_within (by simp) s
  | backlightOn => exact submitCommand_wrdisbv_within _ s
  | backlightOff => exact submitCommand_wrdisbv_within _ s
  | brightness b => exact brightness_within _ s
  | width => exact within_requireActive (op := fun s => (s, .value s.width)) (Within.refl []) s
  | height => exact within_requireActive (op := fun s => (s, .value s.height)) (Within.refl []) s
  | vscrollArea tfa vsa bfa => exact vscrollArea_within tfa vsa bfa s
  | vscrollStart off wrap => exact vscrollStart_within off wrap s
  | pixel x y c => exact (pixel_draws ..).within
  | fill c => exact (fill_draws ..).within
  | fillRect x y w h c => exact (fillRect_draws ..).within
  | hline x y w c => exact (hline_draws ..).within
  | vline x y h c => exact (vline_draws ..).within
  | bitmap x0 y0 x1 y1 buf => exact (bitmap_draws ..).within
  | rect x y w h c => exact (rect_draws ..).within
  | circle xm ym r c => exact (circle_draws ..).within
  | fillCircle xm ym r c => exact (fillCircle_draws ..).within
  | construct h rst rl k b => exact construct_within h rst rl k b s
  | deinit => exact deinit_within s
  | reset => exact resetPanel_within s
  | init => exact within_requireActive (fun s => (runSteps_transmits _ s).within) s
  | madctl m => exact submitCommand_within _ _ s
  | caset x0 x1 => exact submitCommand_long_within (by simp) s
  | raset y0 y1 => exact submitCommand_long_within (by simp) s
  | colmod code => exact submitCommand_within _ _ s
  | slpin => exact submitCommand_long_within (by simp) s
  | slpout => exact submitCommand_long_within (by simp) s
  | dispon => exact submitCommand_long_within (by simp) s
  | dispoff => exact submitCommand_long_within (by simp) s
  | invon => exact submitCommand_long_within (by simp) s
  | invoff => exact submitCommand_long_within (by simp) s
  | wrdisbv v => exact submitCommand_wrdisbv_within v s
  | vscrdef tfa vsa bfa => exact submitCommand_long_within (by simp) s
  | vscsad off => exact submitCommand_long_within (by simp) s
  | ramwr len => exact (openColor_streams len s).within
  | data d => exact within_requireActive (fun s => (sendChunk_streams d s).within) s

theorem exec_within {i : Instr} (h : exec i s = .next t) : Within (writes i) s t := by
  obtain ⟨-, rfl⟩ := exec_next h
  exact (operation_within i s).withResult _

/-- Settles O53, by the row of each operation. -/
theorem onlyItsWritersChangeARegister : Obligations.OnlyItsWritersChangeARegister := fun _ _ _ h =>
  have hs := (exec_within h).same
  ⟨hs .life, hs .madctl, hs .format, hs .colorSpace, hs .rotation, hs .gaps, hs .table, hs .window, hs .ghosts,
    hs .resetPin⟩

/-! ### Every step: the parameters, the trace, RELEASED -/

theorem step_keeps_cfg_and_trace (h : step s = .next t) : t.cfg = s.cfg ∧ ∃ es, t.trace = s.trace ++ es := by
  refine step_keeps (I := fun u => u.cfg = s.cfg ∧ ∃ es, u.trace = s.trace ++ es) (fun _ _ _ hu => hu) ?_
    ⟨rfl, [], by simp⟩ h
  rintro i u v - ⟨hc, es, he⟩ hx
  obtain ⟨hc', ⟨es', he'⟩, -⟩ := exec_within hx
  exact ⟨hc'.trans hc, es ++ es', by rw [he', he, List.append_assoc]⟩

/-- Settles O56: every operation appends to the trace, and so does a step. -/
theorem traceOnlyGrows : Obligations.TraceOnlyGrows := fun _ _ h => (step_keeps_cfg_and_trace h).2

/-- Settles O57: no operation writes the parameters, and so does no step. -/
theorem parametersNeverChange : Obligations.ParametersNeverChange := fun _ _ h => (step_keeps_cfg_and_trace h).1

/-- Only CONSTRUCT and DEINIT have `life` in their row. -/
theorem life_mem_writes {i : Instr} (h : .life ∈ writes i) :
    (∃ b rst rl k d, i = .construct b rst rl k d) ∨ i = .deinit := by
  cases i with
  | construct b rst rl k d => exact .inl ⟨b, rst, rl, k, d, rfl⟩
  | deinit => exact .inr rfl
  | _ => simp [writes] at h

theorem construct_refused {s : State} (hl : s.life ≠ .unbound) (h : BusHandle) (rst : Option Nat) (rl : Bool)
    (k b : Int) : construct h rst rl k b s = (s, .refused .alreadyConstructed) := by
  rw [construct, if_pos hl]

theorem deinit_released {s : State} (hl : s.life = .released) : deinit s = (s, .done) := by simp [deinit, hl]

theorem deinit_active {s : State} (hl : s.life = .active) :
    deinit s = ({ release s with busClaimed := false, life := .released }, .done) := by simp [deinit, hl]

theorem deinit_unbound {s : State} (hl : s.life = .unbound) : deinit s = (s, .refused .notActive) := by
  simp [deinit, hl]

/-- Settles O55: `life` is written by CONSTRUCT, which needs UNBOUND, and by DEINIT, which leaves RELEASED. -/
theorem releasedIsFinal : Obligations.ReleasedIsFinal := by
  intro s t hs h
  refine step_keeps (I := fun u => u.life = .released) (fun _ _ _ hu => hu) ?_ hs h
  intro i u v _ hu hx
  by_cases hw : .life ∈ writes i
  · obtain ⟨-, rfl⟩ := exec_next hx
    obtain ⟨b, rst, rl, k, d, rfl⟩ | rfl := life_mem_writes hw
    · show (construct b rst rl k d u).1.life = _
      rw [construct_refused (by simp [hu])]
      exact hu
    · show (deinit u).1.life = _
      rw [deinit_released hu]
      exact hu
  · obtain ⟨hl, -⟩ := (exec_within hx).same .life hw
    exact hl.trans hu

end Sys2Proof.Machine
end

section
/-! The decoder against the encoder (30_encoding.md R96, R99), and what a step does with each port item. -/

namespace Sys2Proof

/-! ### Requests -/

theorem decode_of_parse {P : Params} {item : PortItem} {i : Instr} (h : parse P item = .ok i) (hw : i.wf P = true) :
    decode P item = .ok i := by
  simp only [decode, h, if_pos hw]

/-- The readers of halves read back what the encoder wrote; the other requests read back by their operands. -/
theorem parse_encode_request (P : Params) {i : Instr} {op : BitVec 6} {args : List Operand}
    (h : encode P i = .request op args) : parse P (encode P i) = .ok i := by
  cases i with
  | submitCommand cmd p =>
    simp [encode, parse, parseRequest, submitCommandOperands, needOperands]
  | submitColor p => rfl
  | setRotation i => simp [encode, parse, parseRequest, setRotationOperands, needOperands]
  | setRotationTable i t => simp [encode, parse, parseRequest, setRotationTableOperands, needOperands]
  | setWindow x0 y0 x1 y1 => rw [parse_encode_setWindow, halves4_args]; rfl
  | setPixelFormat b => rfl
  | setColorSpace k => rfl
  | sendCmd cmd c n => simp [encode, parse, parseRequest, sendCmdOperands, needOperands]
  | mirror mx my => simp [encode, parse, parseRequest, mirrorOperands, needOperands]
  | swapXy sw => simp [encode, parse, parseRequest, bits1, needOperands]
  | setGap gx gy => rw [parse_encode_setGap, halves2_args]; rfl
  | invertColor v => simp [encode, parse, parseRequest, bits1, needOperands]
  | brightness b => simp [encode, parse, parseRequest, brightnessOperands, needOperands]
  | vscrollArea tfa vsa bfa => rw [parse_encode_vscrollArea, halves3_args]; rfl
  | vscrollStart off wrap => rw [parse_encode_vscrollStart, vscrollStart_args]; rfl
  | pixel x y c => rw [parse_encode_pixel, halves3_args]; rfl
  | fill c => rw [parse_encode_fill, halves1_args]; rfl
  | fillRect x y w h c => rw [parse_encode_fillRect, halves5_args]; rfl
  | hline x y w c => rw [parse_encode_hline, halves4_args]; rfl
  | vline x y h c => rw [parse_encode_vline, halves4_args]; rfl
  | bitmap x0 y0 x1 y1 buf => rw [parse_encode_bitmap, bitmap_args]; rfl
  | rect x y w h c => rw [parse_encode_rect, halves5_args]; rfl
  | circle xm ym r c => rw [parse_encode_circle, circle_args]; rfl
  | fillCircle xm ym r c => rw [parse_encode_fillCircle, circle_args]; rfl
  | construct h rst rl k b => simp [encode, parse, parseRequest, constructOperands, needOperands]
  | dispOn | dispOff | backlightOn | backlightOff | width | height | deinit | reset | init => rfl
  | _ => simp [encode, commandItem] at h

/-! ### Wire command rows -/

section

variable {P : Params} (h : P.Ok)
include h

/-- Command numbers at different places of R96's list differ (D6). -/
theorem Params.Ok.opcode_ne {m n : Nat} {a b : Byte} (ha : P.opcodes[m]? = some a) (hb : P.opcodes[n]? = some b)
    (hmn : m ≠ n) : a ≠ b := by
  rintro rfl
  obtain ⟨hnodup, -⟩ := h
  have hm : m < P.opcodes.length := (List.getElem?_eq_some_iff.mp ha).1
  exact hmn ((List.getElem?_inj hm hnodup).mp (ha.trans hb.symm))

/-- A row without parameter bytes is told by its number. -/
theorem parseCommand_nil :
    parseCommand P P.opSlpin [] = .slpin ∧ parseCommand P P.opSlpout [] = .slpout ∧
      parseCommand P P.opDispon [] = .dispon ∧ parseCommand P P.opDispoff [] = .dispoff ∧
      parseCommand P P.opInvon [] = .invon ∧ parseCommand P P.opInvoff [] = .invoff := by
  have n10 : P.opSlpout ≠ P.opSlpin := h.opcode_ne (m := 1) (n := 0) rfl rfl (by decide)
  have n50 : P.opDispon ≠ P.opSlpin := h.opcode_ne (m := 5) (n := 0) rfl rfl (by decide)
  have n51 : P.opDispon ≠ P.opSlpout := h.opcode_ne (m := 5) (n := 1) rfl rfl (by decide)
  have n40 : P.opDispoff ≠ P.opSlpin := h.opcode_ne (m := 4) (n := 0) rfl rfl (by decide)
  have n41 : P.opDispoff ≠ P.opSlpout := h.opcode_ne (m := 4) (n := 1) rfl rfl (by decide)
  have n45 : P.opDispoff ≠ P.opDispon := h.opcode_ne (m := 4) (n := 5) rfl rfl (by decide)
  have n30 : P.opInvon ≠ P.opSlpin := h.opcode_ne (m := 3) (n := 0) rfl rfl (by decide)
  have n31 : P.opInvon ≠ P.opSlpout := h.opcode_ne (m := 3) (n := 1) rfl rfl (by decide)
  have n35 : P.opInvon ≠ P.opDispon := h.opcode_ne (m := 3) (n := 5) rfl rfl (by decide)
  have n34 : P.opInvon ≠ P.opDispoff := h.opcode_ne (m := 3) (n := 4) rfl rfl (by decide)
  have n20 : P.opInvoff ≠ P.opSlpin := h.opcode_ne (m := 2) (n := 0) rfl rfl (by decide)
  have n21 : P.opInvoff ≠ P.opSlpout := h.opcode_ne (m := 2) (n := 1) rfl rfl (by decide)
  have n25 : P.opInvoff ≠ P.opDispon := h.opcode_ne (m := 2) (n := 5) rfl rfl (by decide)
  have n24 : P.opInvoff ≠ P.opDispoff := h.opcode_ne (m := 2) (n := 4) rfl rfl (by decide)
  have n23 : P.opInvoff ≠ P.opInvon := h.opcode_ne (m := 2) (n := 3) rfl rfl (by decide)
  simp [parseCommand, n10, n50, n51, n40, n41, n45, n30, n31, n35, n34, n20, n21, n25, n24, n23]

/-- A row with one parameter byte. -/
theorem parseCommand_one (v : Byte) :
    parseCommand P P.opMadctl [v] = .madctl v ∧ parseCommand P P.opColmod [v] = .colmod v ∧
      parseCommand P P.opWrdisbv [v] = .wrdisbv v := by
  obtain ⟨hm, hf⟩ := h.wrdisbv_ne
  simp [parseCommand, h.madctl_ne_colmod.symm, hm, hf]

omit h in
theorem parseCommand_vscsad (off : Half) : parseCommand P P.opVscsad (be16 off) = .vscsad off := by
  simp [parseCommand, be16, join_hi_lo]

omit h in
theorem parseCommand_vscrdef (tfa vsa bfa : Half) :
    parseCommand P P.opVscrdef (be16 tfa ++ be16 vsa ++ be16 bfa) = .vscrdef tfa vsa bfa := by
  simp [parseCommand, be16, join_hi_lo]

/-- A block of two coordinates that fit, under CASET's number or RASET's. -/
theorem parseCommand_coord4 {a b : Half} (ha : coordFits P a = true) (hb : coordFits P b = true) :
    parseCommand P P.opCaset (coord4 P a b) = .caset a b ∧ parseCommand P P.opRaset (coord4 P a b) = .raset a b := by
  have hne : P.opRaset ≠ P.opCaset := h.opcode_ne (m := 7) (n := 6) rfl rfl (by decide)
  obtain ⟨-, -, hge, hle, -⟩ := h
  simp [coord4_fits hge hle ha hb, parseCommand, join_hi_lo, ha, hb, hne]

/-- The wire command rows read back by their number and bytes. -/
theorem parse_encode_command {i : Instr} (hi : Safety.wireCommand i = true) (hw : i.wf P = true) :
    parse P (encode P i) = .ok i := by
  obtain ⟨slpin, slpout, dispon, dispoff, invon, invoff⟩ := parseCommand_nil h
  have hrow (c : Byte) (p : List Byte) (i : Instr) (hc : parseCommand P c p = i) :
      parse P (commandItem P c p) = .ok i := by
    obtain ⟨-, hbits, -⟩ := h
    rw [parse_command hbits, hc]
  cases i with
  | madctl m => exact hrow _ _ _ (parseCommand_one h m).1
  | caset x0 x1 =>
    obtain ⟨h0, h1⟩ := Bool.and_eq_true_iff.mp hw
    exact hrow _ _ _ (parseCommand_coord4 h h0 h1).1
  | raset y0 y1 =>
    obtain ⟨h0, h1⟩ := Bool.and_eq_true_iff.mp hw
    exact hrow _ _ _ (parseCommand_coord4 h h0 h1).2
  | colmod code => exact hrow _ _ _ (parseCommand_one h code).2.1
  | slpin => exact hrow _ _ _ slpin
  | slpout => exact hrow _ _ _ slpout
  | dispon => exact hrow _ _ _ dispon
  | dispoff => exact hrow _ _ _ dispoff
  | invon => exact hrow _ _ _ invon
  | invoff => exact hrow _ _ _ invoff
  | wrdisbv v => exact hrow _ _ _ (parseCommand_one h v).2.2
  | vscrdef tfa vsa bfa => exact hrow _ _ _ (parseCommand_vscrdef tfa vsa bfa)
  | vscsad off => exact hrow _ _ _ (parseCommand_vscsad off)
  | _ => exact absurd hi Bool.false_ne_true

end

/-! ### The other two frames -/

/-- A priming frame is no command frame: its flags differ. -/
theorem parse_encode_ramwr (P : Params) (len : Nat) : parse P (encode P (.ramwr len)) = .ok (.ramwr len) := by
  have hflags : primeFlags ≠ commandFlags := by decide
  simp [encode, parse, parseFrame, primingFrame, commandFrame, hflags]

theorem parse_encode_data (P : Params) (d : List Byte) : parse P (encode P (.data d)) = .ok (.data d) := by
  simp [encode, parse, parseFrame, dataFrame]

/-- An instruction is a request, a wire command row, RAMWR or DATA. -/
theorem instr_kinds (P : Params) (i : Instr) :
    (∃ op args, encode P i = .request op args) ∨ Safety.wireCommand i = true ∨ (∃ len, i = .ramwr len) ∨
      ∃ d, i = .data d := by
  cases i with
  | ramwr len => exact .inr (.inr (.inl ⟨len, rfl⟩))
  | data d => exact .inr (.inr (.inr ⟨d, rfl⟩))
  | madctl | caset | raset | colmod | slpin | slpout | dispon | dispoff | invon | invoff | wrdisbv | vscrdef
  | vscsad => exact .inr (.inl rfl)
  | _ => exact .inl ⟨_, _, rfl⟩

/-- Settles O6, kind by kind. -/
theorem decodeEncodeAgree : Obligations.DecodeEncodeAgree := by
  intro P i hP hw
  refine decode_of_parse ?_ hw
  obtain ⟨op, args, h⟩ | h | ⟨len, rfl⟩ | ⟨d, rfl⟩ := instr_kinds P i
  · exact parse_encode_request P h
  · exact parse_encode_command hP h hw
  · exact parse_encode_ramwr P len
  · exact parse_encode_data P d

/-! ### Selectors -/

theorem needOperands_ne_unknown (o : Option Instr) : needOperands o ≠ .error .unknownOperation := by
  cases o <;> simp [needOperands]

/-- A selector of the table has a reader of operands; any other is an unknown operation. -/
theorem parseRequest_unknown (op : BitVec 6) (args : List Operand) :
    parseRequest op args = .error .unknownOperation ↔ op.toNat ∉ Laws.selectors := by
  unfold parseRequest Laws.selectors
  split
  case h_35 => simp_all
  all_goals simp [needOperands_ne_unknown, *]

/-- The check of the bounds makes no selector unknown. -/
theorem decode_request_unknown (P : Params) (op : BitVec 6) (args : List Operand) :
    decode P (.request op args) = .error .unknownOperation ↔ parseRequest op args = .error .unknownOperation := by
  show (match parseRequest op args with | .ok i => _ | .error e => _) = _ ↔ _
  cases parseRequest op args with
  | ok i =>
    dsimp only
    split_ifs <;> simp
  | error e => simp

/-- Settles O4: no reader of operands calls its own selector unknown. -/
theorem onlyTheTablesSelectorsSelect : Obligations.OnlyTheTablesSelectorsSelect := fun P op args =>
  (decode_request_unknown P op args).trans (parseRequest_unknown op args)

/-- Settles O5: each word's item is evaluated. -/
theorem tableWordsDecode : Obligations.TableWordsDecode := by
  unfold Obligations.TableWordsDecode
  decide +kernel

end Sys2Proof

namespace Sys2Proof.Machine

/-- Settles O3: the decoder's verdict on the oldest item. -/
theorem stepPerformsTheOldestRequest : Obligations.StepPerformsTheOldestRequest := by
  refine fun s => ⟨step_idle, fun item rest hp => ⟨fun i hd => ⟨decode_wf hd, step_decoded hp hd⟩,
    step_rejected hp, fun e he hd => ?_⟩⟩
  rw [step_rejected hp hd]
  cases e with
  | unknownOperation => exact absurd rfl he
  | badOperands | notAFrame | illFormed => rfl

end Sys2Proof.Machine
end

section
/-! The operations of one command frame: each sends its frame and, when the bus took it, writes the mirror. -/

namespace Sys2Proof.Machine

open Sys2Proof.Safety

/-! ### Recording a result -/

theorem finish_mk (s : State) (r : Result) : finish (s, r) = .next { s with result := some r } := rfl

/-- While nothing is open, an operation's state and result are the outcome. -/
theorem exec_eq_next {i : Instr} (hi : ∀ d, i ≠ .data d) {s t : State} {r : Result} (hs : s.seq.phase = .idle)
    (h : operation s.cfg i s = (t, r)) : exec i s = .next { t with result := some r } := by
  rw [exec_idle hi hs, h, finish_mk]

/-! ### What a one-frame operation writes after its frame was taken -/

/-- The mirror's write of an operation that began in `s`, in the state `t` after its frame was taken
(42_panel_protocol_ops.md R160 to R167); the other operations write nothing. -/
def commit (s : State) : Instr → State → State
  | .setRotation i, t => commitRotation i (rtRead s.rt i) (rotationMadctl s.madctl (rtRead s.rt i)) t
  | .setRotationTable i rt, t =>
    { commitRotation i (rtRead rt i) (rotationMadctl s.madctl (rtRead rt i)) t with rt := rt }
  | .setPixelFormat b, t =>
    match depthOf b with
    | some d => { t with bpp := d, colmod := colmodCode d }
    | none => t
  | .setColorSpace k, t =>
    match colorSpaceOf s.cfg k with
    | some c => { t with madctl := (s.madctl &&& ~~~s.cfg.madctlBgr) ||| colorSpaceBits s.cfg c, colorSpace := c }
    | none => t
  | .mirror mx my, t => { t with madctl := mirrorMadctl s.cfg s.madctl mx my }
  | .swapXy sw, t => { t with madctl := writeMask s.madctl s.cfg.madctlMv sw }
  | _, t => t

/-- A frame, and a write of the mirror `k` if the bus took it. -/
theorem andThen_submitCommand {s : State} (h : Ready s) (c : Byte) (p : List Byte) (hp : p.length ≤ Config.busMax)
    (k : State → State) :
    andThen (submitCommand c p s) (fun t => (k t, .done)) =
      match answerAt s 0 with
      | .ok => (k (sentCommand c p s), .done)
      | .fail st => (failedCommand c p s, .ioError st) := by
  rw [submitCommand_eq h c p hp]
  cases answerAt s 0 <;> rfl

theorem one_byte_fits (m : Byte) : [m].length ≤ Config.busMax := by simp [Config.busMax]

theorem setRotation_eq {s : State} (h : Ready s) (i : BitVec 2) :
    setRotation i s =
      match answerAt s 0 with
      | .ok =>
        (commit s (.setRotation i) (sentCommand s.cfg.opMadctl [rotationMadctl s.madctl (rtRead s.rt i)] s), .done)
      | .fail st => (failedCommand s.cfg.opMadctl [rotationMadctl s.madctl (rtRead s.rt i)] s, .ioError st) := by
  rw [setRotation, requireActive_active h.1]
  exact andThen_submitCommand h _ _ (one_byte_fits _) _

/-- The new table serves during the frame; after a refused one the old table is back. -/
theorem setRotationTable_eq {s : State} (h : Ready s) (i : BitVec 2) (t : RotTable) :
    setRotationTable i t s =
      match answerAt s 0 with
      | .ok =>
        (commit s (.setRotationTable i t) (sentCommand s.cfg.opMadctl [rotationMadctl s.madctl (rtRead t i)] s), .done)
      | .fail st => (failedCommand s.cfg.opMadctl [rotationMadctl s.madctl (rtRead t i)] s, .ioError st) := by
  have ht : Ready { s with rt := t } := h
  rw [setRotationTable, requireActive_active h.1, setRotation_eq ht]
  have ha : answerAt { s with rt := t } 0 = answerAt s 0 := rfl
  rw [ha]
  cases answerAt s 0 <;> rfl

theorem sendMadctl_eq {s : State} (h : Ready s) (m : Byte) :
    sendMadctl m s =
      match answerAt s 0 with
      | .ok => ({ sentCommand s.cfg.opMadctl [m] s with madctl := m }, .done)
      | .fail st => (failedCommand s.cfg.opMadctl [m] s, .ioError st) :=
  andThen_submitCommand h _ _ (one_byte_fits _) _

/-- Only the flag 1 asks the open function. -/
theorem scrollOffset_eq (off : Half) (wrap : Option Bool) (s : State) :
    scrollOffset off wrap s = if wrap = some true then Config.vscrollWrap off (visible s.toQpc) else off := by
  rcases wrap with _ | _ | _ <;> rfl

theorem frame_inj {a c : Byte} {b p : List Byte} (h : some (a, b) = some (c, p)) : a = c ∧ b = p :=
  Prod.mk.inj (Option.some.inj h)

/-- An operation of one command frame: its frame goes out; the answer decides whether the mirror is written. -/
theorem operation_oneFrame {s : State} {i : Instr} {c : Byte} {p : List Byte} (h : Ready s)
    (hf : oneFrame s i = some (c, p)) :
    operation s.cfg i s =
      match answerAt s 0 with
      | .ok => (commit s i (sentCommand c p s), .done)
      | .fail st => (failedCommand c p s, .ioError st) := by
  have hactive := h.1
  cases i with
  | submitCommand cmd q =>
    simp only [oneFrame] at hf
    split_ifs at hf with hq
    obtain ⟨rfl, rfl⟩ := frame_inj hf
    exact submitCommand_eq h _ _ hq
  | setRotation i => obtain ⟨rfl, rfl⟩ := frame_inj hf; exact setRotation_eq h i
  | setRotationTable i t => obtain ⟨rfl, rfl⟩ := frame_inj hf; exact setRotationTable_eq h i t
  | setPixelFormat b =>
    simp only [operation, setPixelFormat, requireActive_active hactive, commit]
    cases hd : depthOf b with
    | none => simp [oneFrame, hd] at hf
    | some d =>
      simp only [oneFrame, hd, Option.map_some, Option.some.injEq, Prod.mk.injEq] at hf
      obtain ⟨rfl, rfl⟩ := hf
      exact andThen_submitCommand h _ _ (one_byte_fits _) _
  | setColorSpace k =>
    simp only [operation, setColorSpace, requireActive_active hactive, commit]
    cases hd : colorSpaceOf s.cfg k with
    | none => simp [oneFrame, hd] at hf
    | some c =>
      simp only [oneFrame, hd, Option.map_some, Option.some.injEq, Prod.mk.injEq] at hf
      obtain ⟨rfl, rfl⟩ := hf
      exact andThen_submitCommand h _ _ (one_byte_fits _) _
  | sendCmd cmd c n =>
    simp only [oneFrame] at hf
    simp only [operation, sendCmd, requireActive_active hactive]
    split_ifs at hf with h0 h1 <;> cases hf
    · subst h0
      exact submitCommand_eq h _ _ (by simp)
    · subst h1
      exact submitCommand_eq h _ _ (one_byte_fits _)
  | mirror mx my =>
    obtain ⟨rfl, rfl⟩ := frame_inj hf
    show mirror mx my s = _
    rw [mirror, requireActive_active hactive]
    exact sendMadctl_eq h _
  | swapXy sw =>
    obtain ⟨rfl, rfl⟩ := frame_inj hf
    show swapXy sw s = _
    rw [swapXy, requireActive_active hactive]
    exact sendMadctl_eq h _
  | brightness b =>
    obtain ⟨rfl, rfl⟩ := frame_inj hf
    show brightness b.toInt s = _
    rw [brightness, requireActive_active hactive]
    exact submitCommand_eq h _ _ (one_byte_fits _)
  | vscrollArea tfa vsa bfa =>
    obtain ⟨rfl, rfl⟩ := frame_inj hf
    show vscrollArea tfa vsa bfa s = _
    rw [vscrollArea, requireActive_active hactive]
    exact submitCommand_eq h _ _ (by simp [Config.busMax])
  | vscrollStart off wrap =>
    obtain ⟨rfl, rfl⟩ := frame_inj hf
    show vscrollStart off wrap s = _
    rw [vscrollStart, requireActive_active hactive, scrollOffset_eq]
    exact submitCommand_eq h _ _ (by simp [Config.busMax])
  | invertColor | dispOn | dispOff | slpin | slpout | dispon | dispoff | invon | invoff =>
    obtain ⟨rfl, rfl⟩ := frame_inj hf
    exact submitCommand_eq h _ _ (Nat.zero_le _)
  | backlightOn | backlightOff | madctl | colmod | wrdisbv =>
    obtain ⟨rfl, rfl⟩ := frame_inj hf
    exact submitCommand_eq h _ _ (one_byte_fits _)
  | caset | raset =>
    obtain ⟨rfl, rfl⟩ := frame_inj hf
    exact submitCommand_eq h _ _ (coord4_length_le_busMax _ _ _)
  | vscrdef | vscsad =>
    obtain ⟨rfl, rfl⟩ := frame_inj hf
    exact submitCommand_eq h _ _ (by simp [Config.busMax])
  | _ => cases hf

theorem oneFrame_not_data {s : State} {i : Instr} {f : Byte × List Byte} (h : oneFrame s i = some f) (d : List Byte) :
    i ≠ .data d := by
  rintro rfl
  cases h

variable {s : State} {i : Instr} {c : Byte} {p : List Byte}

/-- The frame was taken. -/
theorem exec_oneFrame_ok (h : Ready s) (hb : answerAt s 0 = .ok) (hf : oneFrame s i = some (c, p)) :
    exec i s = .next { commit s i (sentCommand c p s) with result := some .done } :=
  exec_eq_next (oneFrame_not_data hf) h.2 (by rw [operation_oneFrame h hf, hb])

/-- The frame was refused: nothing is written. -/
theorem exec_oneFrame_fail {st : Nat} (h : Ready s) (hb : answerAt s 0 = .fail st) (hf : oneFrame s i = some (c, p)) :
    exec i s = .next { failedCommand c p s with result := some (.ioError st) } :=
  exec_eq_next (oneFrame_not_data hf) h.2 (by rw [operation_oneFrame h hf, hb])

/-- Settles O28. -/
theorem failedFrameCommitsNothing : Obligations.FailedFrameCommitsNothing :=
  fun _ _ _ _ _ h hf hb => exec_oneFrame_fail h hb hf

end Sys2Proof.Machine
end

section
/-! The statements about operations of one command frame: what such an operation does, frame by frame. -/

namespace Sys2Proof.Machine

open Sys2Proof.Safety

variable {s : State} {i : Instr}

/-! ### Objects that are not ACTIVE -/

/-- Every operation but CONSTRUCT and DEINIT begins with `require S.life = ACTIVE` (60_exceptions.md R240). -/
theorem operation_inactive (h : s.life ≠ .active) (hc : ∀ b rst rl k d, i ≠ .construct b rst rl k d)
    (hd : i ≠ .deinit) (P : Params) : operation P i s = (s, .refused .notActive) := by
  cases i with
  | construct b rst rl k d => exact absurd rfl (hc b rst rl k d)
  | deinit => exact absurd rfl hd
  | submitColor p =>
    show submitColor p s = _
    rw [submitColor, show openColor p.length s = _ from requireActive_inactive h, andThen_error rfl]
  | _ => exact if_neg h

/-- Settles O54. -/
theorem inactiveObjectRefusesOperations : Obligations.InactiveObjectRefusesOperations := by
  intro s i hl hidle hc hd
  by_cases hi : ∀ d, i ≠ .data d
  · exact exec_eq_next hi hidle (operation_inactive hl hc hd _)
  · push Not at hi
    obtain ⟨d, rfl⟩ := hi
    exact exec_data_inactive hl

/-- Settles O58: every instruction but DATA needs an IDLE sequencer. -/
theorem openTransferRefusesOtherOperations : Obligations.OpenTransferRefusesOtherOperations := by
  intro s i hs hi
  rw [exec_eq_runOp hi, runOp, if_neg hs]

/-- Settles O1: power-on's registers are read off; its object is not ACTIVE and its port is empty. -/
theorem powerOnWaitsForConstruct : Obligations.PowerOnWaitsForConstruct := by
  refine ⟨rfl, rfl, rfl, rfl, rfl, step_idle rfl, fun i hc => ?_⟩
  by_cases hd : i = .deinit
  · subst hd
    rfl
  · exact inactiveObjectRefusesOperations _ i (by decide) rfl hc hd

/-- Settles O2: each invariant is evaluated. -/
theorem powerOnHasTheInvariants : Obligations.PowerOnHasTheInvariants :=
  ⟨by decide, by decide, by decide, by decide, Tests.witness_parameters_ok⟩

/-! ### Wire command rows -/

/-- A wire command row sends the command frame that encodes it, and writes nothing else. -/
theorem wireCommand_frame (s : State) (hi : wireCommand i = true) :
    ∃ c p, oneFrame s i = some (c, p) ∧ encode s.cfg i = commandItem s.cfg c p ∧ ∀ t, commit s i t = t := by
  cases i with
  | madctl | caset | raset | colmod | slpin | slpout | dispon | dispoff | invon | invoff | wrdisbv | vscrdef
  | vscsad => exact ⟨_, _, rfl, rfl, fun _ => rfl⟩
  | _ => exact absurd hi Bool.false_ne_true

/-- Settles O16. -/
theorem wireCommandsSendTheirFrame : Obligations.WireCommandsSendTheirFrame := by
  intro s h hb
  have send {i : Instr} {c p} (hi : wireCommand i = true) (hf : oneFrame s i = some (c, p)) :
      exec i s = .next { sentCommand c p s with result := some .done } := by
    obtain ⟨-, -, -, -, hcommit⟩ := wireCommand_frame s hi
    rw [exec_oneFrame_ok h hb hf, hcommit]
  exact ⟨fun _ => send rfl rfl, fun _ _ => send rfl rfl, fun _ _ => send rfl rfl, fun _ => send rfl rfl, send rfl rfl,
    send rfl rfl, send rfl rfl, send rfl rfl, send rfl rfl, send rfl rfl, fun _ => send rfl rfl,
    fun _ _ _ => send rfl rfl, fun _ => send rfl rfl⟩

/-- Settles O7: the phase's value by `addrOf_value`, the rows by what one frame does under either answer. -/
theorem wireRowsSendTheirEncoding : Obligations.WireRowsSendTheirEncoding := by
  refine ⟨fun P n c p hn => ⟨?_, ?_, rfl⟩, fun s t i h hbits hn hi ht => ?_⟩
  · rw [← addrOf_value hn c]
    rfl
  · rw [← addrOf_value hn P.opRamwr]
    rfl
  · obtain ⟨c, p, hf, henc, hcommit⟩ := wireCommand_frame s hi
    refine ⟨commandFrame s.cfg s.cfg.addrBits c p, c, p, henc, ?_, hf, rfl, ?_, rfl, rfl⟩
    · rw [← hbits]
      cases hb : answerAt s 0 with
      | ok =>
        rw [exec_oneFrame_ok h hb hf, hcommit] at ht
        obtain rfl := Host.Outcome.next.inj ht
        rfl
      | fail st =>
        rw [exec_oneFrame_fail h hb hf] at ht
        obtain rfl := Host.Outcome.next.inj ht
        rfl
    · rw [← addrOf_value hn c]
      rfl

/-! ### SUBMIT_COMMAND and SEND_CMD -/

theorem submitCommand_too_long (h : s.life = .active) (c : Byte) {p : List Byte} (hp : Config.busMax < p.length) :
    submitCommand c p s = (s, .refused .payloadTooLong) := by
  rw [submitCommand, requireActive_active h, if_pos hp]

theorem oneFrame_submitCommand (c : Byte) {p : List Byte} (hp : p.length ≤ Config.busMax) :
    oneFrame s (.submitCommand c p) = some (c, p) := if_pos hp

/-- Settles O9. -/
theorem submitCommandSendsOneFrame : Obligations.SubmitCommandSendsOneFrame := fun s c _ hidle =>
  ⟨fun ha hp hb => exec_oneFrame_ok ⟨ha, hidle⟩ hb (oneFrame_submitCommand c hp),
    fun _ ha hp hb => exec_oneFrame_fail ⟨ha, hidle⟩ hb (oneFrame_submitCommand c hp),
    fun ha hp => exec_eq_next (by simp) hidle (submitCommand_too_long ha c hp),
    fun ha => inactiveObjectRefusesOperations s _ ha hidle (by simp) (by simp)⟩

theorem sendCmd_bad_length (h : s.life = .active) (cmd c : Byte) {n : Nat} (hn : 1 < n) :
    sendCmd cmd c n s = (s, .refused .badLength) := by
  rw [sendCmd, requireActive_active h, if_pos hn]

/-- Settles O22. -/
theorem sendCmdSendsZeroOrOneByte : Obligations.SendCmdSendsZeroOrOneByte := fun _ cmd c h =>
  ⟨fun hb => ⟨exec_oneFrame_ok h hb rfl, exec_oneFrame_ok h hb rfl⟩,
    fun _ hb => ⟨exec_oneFrame_fail h hb rfl, exec_oneFrame_fail h hb rfl⟩,
    fun _ hn => exec_eq_next (by simp) h.2 (sendCmd_bad_length h.1 cmd c hn)⟩

/-! ### Rotation -/

/-- The entry that an index selects. -/
theorem rtRead_of_getElem? {t : RotTable} {i : BitVec 2} {e : RotEntry}
    (h : [t.e0, t.e1, t.e2, t.e3][i.toNat]? = some e) : rtRead t i = e := by
  have hi : i = 0 ∨ i = 1 ∨ i = 2 ∨ i = 3 := by
    have := i.isLt
    bv_omega
  rcases hi with rfl | rfl | rfl | rfl <;> exact Option.some.inj h

/-- Settles O17. -/
theorem setRotationSendsThenCommits : Obligations.SetRotationSendsThenCommits := by
  rintro s i e m h he rfl
  obtain rfl := rtRead_of_getElem? he
  exact ⟨fun hb => exec_oneFrame_ok h hb rfl, fun _ hb => exec_oneFrame_fail h hb rfl⟩

/-- Settles O18. -/
theorem setRotationTableReplacesOrKeeps : Obligations.SetRotationTableReplacesOrKeeps := by
  rintro s i t e m h he rfl
  obtain rfl := rtRead_of_getElem? he
  exact ⟨fun hb => exec_oneFrame_ok h hb rfl, fun _ hb => exec_oneFrame_fail h hb rfl⟩

/-! ### Pixel format and colour space -/

theorem depthOf_none {b : Int} (h16 : b ≠ 16) (h18 : b ≠ 18) (h24 : b ≠ 24) : depthOf b = none := by
  rw [depthOf, if_neg h16, if_neg h18, if_neg h24]

theorem colorSpaceOf_none {P : Params} {k : Int} (hr : k ≠ P.codeRgb) (hb : k ≠ P.codeBgr) :
    colorSpaceOf P k = none := by
  rw [colorSpaceOf, if_neg hr, if_neg hb]

theorem colorSpaceOf_rgb (P : Params) : colorSpaceOf P P.codeRgb = some .rgb := if_pos rfl

theorem colorSpaceOf_bgr {P : Params} (h : P.codeRgb ≠ P.codeBgr) : colorSpaceOf P P.codeBgr = some .bgr := by
  rw [colorSpaceOf, if_neg h.symm, if_pos rfl]

/-- Settles O20. -/
theorem setPixelFormatSendsThenCommits : Obligations.SetPixelFormatSendsThenCommits := by
  refine fun s h => ⟨fun b d code hmem => ?_, fun b h16 h18 h24 => exec_eq_next (by simp) h.2 ?_⟩
  · simp only [List.mem_cons, Prod.mk.injEq, List.not_mem_nil, or_false] at hmem
    obtain ⟨rfl, rfl, rfl⟩ | ⟨rfl, rfl, rfl⟩ | ⟨rfl, rfl, rfl⟩ := hmem <;>
      exact ⟨fun hb => exec_oneFrame_ok h hb rfl, fun _ hb => exec_oneFrame_fail h hb rfl⟩
  · simp only [operation, setPixelFormat, requireActive_active h.1, depthOf_none h16 h18 h24]

/-- Clearing a bit before setting it changes nothing. -/
theorem and_not_or_self (m b : Byte) : (m &&& ~~~b) ||| b = m ||| b := by
  ext i hi
  simp only [BitVec.getElem_or, BitVec.getElem_and, BitVec.getElem_not]
  cases m[i] <;> cases b[i] <;> rfl

theorem oneFrame_setColorSpace {k : Int} {c : ColorSpace} {m : Byte} (hk : colorSpaceOf s.cfg k = some c)
    (hm : (s.madctl &&& ~~~s.cfg.madctlBgr) ||| colorSpaceBits s.cfg c = m) :
    oneFrame s (.setColorSpace k) = some (s.cfg.opMadctl, [m]) ∧
      ∀ t, commit s (.setColorSpace k) t = { t with madctl := m, colorSpace := c } := by
  subst hm
  simp [oneFrame, commit, hk]

/-- Settles O21. -/
theorem setColorSpaceSendsThenCommits : Obligations.SetColorSpaceSendsThenCommits := by
  refine fun s h hne => ⟨fun hb => ?_, fun hb => ?_, fun k hr hb => exec_eq_next (by simp) h.2 ?_⟩
  · obtain ⟨hf, hc⟩ := oneFrame_setColorSpace (colorSpaceOf_rgb s.cfg) (BitVec.or_zero)
    rw [exec_oneFrame_ok h hb hf, hc]
  · obtain ⟨hf, hc⟩ := oneFrame_setColorSpace (colorSpaceOf_bgr hne) (and_not_or_self _ _)
    rw [exec_oneFrame_ok h hb hf, hc]
  · simp only [operation, setColorSpace, requireActive_active h.1, colorSpaceOf_none hr hb]

/-! ### Mirror bits, display, scroll -/

/-- Settles O23. -/
theorem mirrorAndSwapWriteTheirBits : Obligations.MirrorAndSwapWriteTheirBits := by
  intro s h hb
  constructor
  · rintro mx my m rfl
    exact exec_oneFrame_ok h hb rfl
  · rintro sw m rfl
    exact exec_oneFrame_ok h hb rfl

/-- Settles O25. -/
theorem displayCommandsSendTheirFrame : Obligations.DisplayCommandsSendTheirFrame := fun _ h hb =>
  ⟨exec_oneFrame_ok h hb rfl, exec_oneFrame_ok h hb rfl, exec_oneFrame_ok h hb rfl, exec_oneFrame_ok h hb rfl,
    exec_oneFrame_ok h hb rfl, exec_oneFrame_ok h hb rfl⟩

/-- Settles O27. -/
theorem scrollCommandsSendTheirFrame : Obligations.ScrollCommandsSendTheirFrame := by
  refine fun s h hb => ⟨fun tfa vsa bfa => exec_oneFrame_ok h hb rfl, fun off wrap hw => ?_, ?_⟩
  · have hf : oneFrame s (.vscrollStart off wrap) = some (s.cfg.opVscsad, [hi off, lo off]) := by
      simp only [oneFrame, if_neg hw]
    exact exec_oneFrame_ok h hb hf
  · rintro off o rfl
    exact exec_oneFrame_ok h hb rfl

/-! ### Brightness -/

theorem default_brightMap_getElem (k : Fin 99) :
    (Params.standard.brightMap[k.val].toNat : Int) = 255 * ((k.val : Int) + 1) / 100 := by
  have hk := k.isLt
  have hval : Params.standard.brightMap[k.val] = BitVec.ofNat 8 (255 * (k.val + 1) / 100) := by
    show Params.defaultBrightMap[k.val] = _
    simp [Params.defaultBrightMap]
  rw [hval, BitVec.toNat_ofNat, Nat.mod_eq_of_lt (by omega)]
  norm_cast

/-- The map between its fixed ends, under the default parameter (log entry 8). -/
theorem brightMap_default {P : Params} (hP : P.brightMap = Params.standard.brightMap) {c : Int} (h0 : 0 ≤ c)
    (h100 : c ≤ 100) : ((brightMap P c).toNat : Int) = 255 * c / 100 := by
  obtain rfl | hpos := h0.eq_or_lt
  · rw [brightMap_low P le_rfl]
    rfl
  obtain rfl | hlt := h100.eq_or_lt
  · rw [brightMap_high P le_rfl]
    rfl
  have hentry := brightMap_entry P ⟨(c - 1).toNat, by omega⟩
  have hback : (((c - 1).toNat : Nat) : Int) + 1 = c := by omega
  simp only [hP, hback] at hentry
  have hdefault := default_brightMap_getElem ⟨(c - 1).toNat, by omega⟩
  simp only [hback] at hdefault
  rw [hentry, hdefault]

/-- Settles O26: the byte is the map at the clamped percentage. -/
theorem brightnessClampsThenMaps : Obligations.BrightnessClampsThenMaps := by
  intro s b h hb
  refine ⟨brightMap s.cfg (min (max b.toInt 0) 100), exec_oneFrame_ok h hb rfl, fun hlow => ?_, fun hhigh => ?_,
    fun k hk => ?_, fun hmap h0 h100 => ?_⟩
  · exact brightMap_low _ (by omega)
  · exact brightMap_high _ (by omega)
  · have hk' := k.isLt
    rw [show min (max b.toInt 0) 100 = (k.val : Int) + 1 by omega, brightMap_entry]
  · rw [show min (max b.toInt 0) 100 = b.toInt by omega]
    exact brightMap_default hmap h0 h100

/-! ### Gaps and sizes -/

/-- Settles O24. -/
theorem gapAndSizeQueriesSendNothing : Obligations.GapAndSizeQueriesSendNothing := by
  refine fun s hidle => ⟨fun ha => ⟨fun gx gy => exec_eq_next
    (i := .setGap gx gy) (t := { s with xGap := gx, yGap := gy }) (by simp) hidle ?_, exec_eq_next (by simp) hidle ?_,
    exec_eq_next (by simp) hidle ?_⟩, fun ha => ?_⟩
  · show setGap gx gy s = _
    rw [setGap, requireActive_active ha]
  · exact requireActive_active (op := fun s => (s, .value s.width)) ha
  · exact requireActive_active (op := fun s => (s, .value s.height)) ha
  · have refuses {i : Instr} := inactiveObjectRefusesOperations s i ha hidle
    exact ⟨fun _ _ => refuses (by simp) (by simp), refuses (by simp) (by simp), refuses (by simp) (by simp)⟩

/-! ### Raw bytes and their repair (70_reset_and_hazards.md R267) -/

/-- The five operations that compute MADCTL from the mirror send the byte they write. -/
theorem repair_frame {t : State}
    (hi : (∃ idx, i = .setRotation idx) ∨ (∃ idx table, i = .setRotationTable idx table) ∨
      (∃ k, (k = t.cfg.codeRgb ∨ k = t.cfg.codeBgr) ∧ i = .setColorSpace k) ∨
      (∃ mx my, i = .mirror mx my) ∨ ∃ sw, i = .swapXy sw) :
    ∃ m, oneFrame t i = some (t.cfg.opMadctl, [m]) ∧
      ∀ u, (commit t i u).madctl = m ∧ (commit t i u).txMadctl = u.txMadctl := by
  obtain ⟨idx, rfl⟩ | ⟨idx, table, rfl⟩ | ⟨k, hk, rfl⟩ | ⟨mx, my, rfl⟩ | ⟨sw, rfl⟩ := hi
  · exact ⟨_, rfl, fun u => ⟨rfl, rfl⟩⟩
  · exact ⟨_, rfl, fun u => ⟨rfl, rfl⟩⟩
  · obtain ⟨c, hc⟩ : ∃ c, colorSpaceOf t.cfg k = some c := by
      unfold colorSpaceOf
      split_ifs with hr hb
      · exact ⟨_, rfl⟩
      · exact ⟨_, rfl⟩
      · exact absurd hk (by simp [hr, hb])
    obtain ⟨hf, hcommit⟩ := oneFrame_setColorSpace hc rfl
    exact ⟨_, hf, fun u => by rw [hcommit]; exact ⟨rfl, rfl⟩⟩
  · exact ⟨_, rfl, fun u => ⟨rfl, rfl⟩⟩
  · exact ⟨_, rfl, fun u => ⟨rfl, rfl⟩⟩

/-- Settles O52: the raw byte moves the ghost alone; each repairing operation sends the byte it commits. -/
theorem rawMadctlDivergesUntilRepaired : Obligations.RawMadctlDivergesUntilRepaired := by
  intro s v h hok hb
  have hb0 : answerAt s 0 = .ok := hb 0 (by decide)
  have hfit := one_byte_fits v
  refine ⟨⟨_, exec_oneFrame_ok h hb0 rfl, exec_oneFrame_ok h hb0 (oneFrame_submitCommand _ hfit), ?_, rfl, ?_, ?_⟩,
    ⟨_, exec_oneFrame_ok h hb0 rfl, exec_oneFrame_ok h hb0 (oneFrame_submitCommand _ hfit), ?_, rfl, rfl, ?_⟩⟩
  · simp [commit]
  · rintro hne ⟨hm, -⟩
    simp [commit, hne] at hm
  · intro i hi
    generalize ht : ({ commit s (.sendCmd s.cfg.opMadctl v 1) (sentCommand s.cfg.opMadctl [v] s) with
      result := some .done } : State) = t
    have hcfg : t.cfg = s.cfg := by rw [← ht]; rfl
    have hready : Ready t := by rw [← ht]; exact h
    have hanswer : answerAt t 0 = .ok := by
      rw [← ht]
      exact (answerAt_sentCommand s.cfg.opMadctl [v] s 0).trans (hb 1 (by decide))
    rw [← hcfg] at hi
    obtain ⟨m, hf, hcommit⟩ := repair_frame hi
    obtain ⟨hmadctl, hghost⟩ := hcommit (sentCommand t.cfg.opMadctl [m] t)
    refine ⟨_, exec_oneFrame_ok hready hanswer hf, rfl, ?_⟩
    show (commit t i _).txMadctl = some (commit t i _).madctl
    rw [hmadctl, hghost]
    simp
  · simp [commit]
  · rintro hne ⟨-, hf⟩
    simp [commit, hne] at hf

end Sys2Proof.Machine
end

section
/-! The colour transfer under every answer of the bus (40_bus_transport.md R121, R124), and its two frames as
instructions (41_panel_wire_commands.md R144, R155). -/

namespace Sys2Proof.Machine

open Sys2Proof.Safety

variable {s t : State}

/-! ### The oracle -/

/-- After one question the answers have moved up by one. -/
theorem answerAt_after_one (ha : t.answers = s.answers.tail) (hn : t.asked = s.asked + 1) (k : Nat) :
    answerAt t k = answerAt s (k + 1) := by
  rw [answerAt_of_drop (s := s) (n := 1) (by rw [ha, List.drop_one]) hn, Nat.add_comm]

/-- Either the bus takes `n` frames or it refuses one, and takes those before it. -/
theorem busOk_or_refused (s : State) (n : Nat) :
    BusOk s n ∨ ∃ j < n, ∃ st, BusOk s j ∧ answerAt s j = .fail st := by
  induction n with
  | zero => exact .inl fun k hk => absurd hk (Nat.not_lt_zero k)
  | succ n ih =>
    obtain hok | ⟨j, hj, st, hrefused⟩ := ih
    · cases hn : answerAt s n with
      | ok => exact .inl fun k hk => (Nat.lt_succ_iff_lt_or_eq.mp hk).elim (hok k) fun e => e ▸ hn
      | fail st => exact .inr ⟨n, Nat.lt_succ_self n, st, hok, hn⟩
    · exact .inr ⟨j, Nat.lt_succ_of_lt hj, st, hrefused⟩

/-! ### One chunk -/

/-- An open transfer of `p` whose next chunk is the `k`-th. -/
def AtChunk (p : List Byte) (k : Nat) (s : State) : Prop :=
  s.seq = { phase := .chunk, off := k * Config.busMax, rem := p.length - k * Config.busMax }

/-- The state after chunk `d` was taken and bytes remain. -/
def afterChunk (p : List Byte) (k : Nat) (s : State) : State :=
  { s with
    trace := s.trace ++ [.tx (dataFrame (chunk p k))]
    seq := { phase := .chunk, off := (k + 1) * Config.busMax, rem := p.length - (k + 1) * Config.busMax }
    answers := s.answers.tail, asked := s.asked + 1 }

/-- The state after the last chunk was taken. -/
def afterLastChunk (p : List Byte) (k : Nat) (s : State) : State :=
  { s with
    trace := s.trace ++ [.tx (dataFrame (chunk p k)), .cs true], csLevel := true
    seq := { phase := .idle, off := p.length, rem := 0 }
    answers := s.answers.tail, asked := s.asked + 1 }

/-- The state after chunk `k` was refused. -/
def afterRefusedChunk (p : List Byte) (k : Nat) (s : State) : State :=
  { s with
    trace := s.trace ++ [.tx (dataFrame (chunk p k)), .cs true], csLevel := true
    seq := { phase := .idle, off := k * Config.busMax, rem := p.length - k * Config.busMax }
    answers := s.answers.tail, asked := s.asked + 1 }

theorem chunk_length_eq_next {p : List Byte} {k : Nat} (hs : AtChunk p k s) :
    (chunk p k).length = min Config.busMax s.seq.rem := by
  rw [hs, chunk_length, chunkSize]

theorem slice_eq_chunk {p : List Byte} {k : Nat} (hs : AtChunk p k s) :
    slice p s.seq.off (min Config.busMax s.seq.rem) = chunk p k := by
  rw [hs, chunk, chunkSize]

theorem sendChunk_not_last {p : List Byte} {k : Nat} (hs : AtChunk p k s) (hk : k + 1 < chunkCount p.length)
    (hb : answerAt s 0 = .ok) : sendChunk (chunk p k) s = (afterChunk p k s, .done) := by
  have hfull := full_of_not_last hk
  have hlen : (chunk p k).length = Config.busMax := by rw [chunk_length, chunkSize_of_not_last hk]
  have hrest : p.length - k * Config.busMax - Config.busMax = p.length - (k + 1) * Config.busMax := by
    rw [Nat.succ_mul, Nat.sub_sub]
  rw [sendChunk_ok hb, hlen, hs, if_neg (by simp only; omega), hrest, ← Nat.succ_mul]
  rfl

theorem sendChunk_last {p : List Byte} {k : Nat} (hs : AtChunk p k s) (hk : k + 1 = chunkCount p.length)
    (hb : answerAt s 0 = .ok) : sendChunk (chunk p k) s = (afterLastChunk p k s, .done) := by
  have hlen : (chunk p k).length = p.length - k * Config.busMax := by
    rw [chunk_length, chunkSize, Nat.min_eq_right (last_takes_rest hk)]
  have hle : k * Config.busMax ≤ p.length := by
    have hk' : k < chunkCount p.length := by omega
    simp only [chunkCount, Config.busMax] at *
    omega
  rw [sendChunk_ok hb, hlen, hs, if_pos (Nat.sub_self _), Nat.add_sub_cancel' hle]
  rfl

theorem sendChunk_refused {p : List Byte} {k st : Nat} (hs : AtChunk p k s) (hc : s.csLevel = false)
    (hb : answerAt s 0 = .fail st) : sendChunk (chunk p k) s = (afterRefusedChunk p k s, .ioError st) := by
  rw [sendChunk_fail hb hc, hs]
  rfl

/-! ### The loop up to a refused chunk -/

/-- From chunk `k` on, with `n` trips allowed, the bus takes `j` chunks and refuses the next: no more is sent. -/
theorem streamLoop_refused (p : List Byte) {st : Nat} (j : Nat) : ∀ (n k : Nat) (s : State),
    k + n = chunkCount p.length → j < n → AtChunk p k s → s.csLevel = false → BusOk s j → answerAt s j = .fail st →
    streamLoop p n s =
      ({ s with
          trace := s.trace ++ chunkEvents p k (j + 1) ++ [.cs true], csLevel := true
          seq := { phase := .idle, off := (k + j) * Config.busMax, rem := p.length - (k + j) * Config.busMax }
          answers := s.answers.drop (j + 1), asked := s.asked + (j + 1) }, .ioError st) := by
  induction j with
  | zero =>
    intro n k s hn hj hs hc _ hfail
    obtain ⟨n, rfl⟩ := Nat.exists_eq_succ_of_ne_zero hj.ne'
    rw [streamLoop, slice_eq_chunk hs, sendChunk_refused hs hc hfail]
    simp [afterRefusedChunk, chunkEvents]
  | succ j ih =>
    intro n k s hn hj hs hc hok hfail
    obtain ⟨n, rfl⟩ := Nat.exists_eq_succ_of_ne_zero (Nat.ne_zero_of_lt hj)
    have hafter (i : Nat) : answerAt (afterChunk p k s) i = answerAt s (i + 1) := answerAt_after_one rfl rfl i
    have hrem : (afterChunk p k s).seq.rem ≠ 0 := by
      have hfull := full_of_not_last (L := p.length) (k := k) (by omega)
      show p.length - (k + 1) * Config.busMax ≠ 0
      rw [Nat.succ_mul]
      omega
    rw [streamLoop, slice_eq_chunk hs, sendChunk_not_last hs (by omega) (hok 0 (Nat.succ_pos j)), andThen_done,
      if_neg hrem, ih n (k + 1) (afterChunk p k s) (by omega) (by omega) rfl hc
        (fun i hi => (hafter i).trans (hok (i + 1) (by omega))) ((hafter j).trans hfail)]
    simp [afterChunk, chunkEvents, List.range'_succ, Nat.add_assoc, Nat.add_comm 1 j, Nat.add_comm 1 (j + 1)]

/-- The first chunks of a payload, as the events the loop sends. -/
theorem chunkEvents_take {p : List Byte} {n : Nat} (hn : n ≤ chunkCount p.length) :
    chunkEvents p 0 n = ((chunks p).take n).map fun d => .tx (dataFrame d) := by
  rw [chunks, ← List.map_take, List.take_range, Nat.min_eq_left hn, chunkEvents, List.map_map, List.range_eq_range']
  rfl

/-! ### SUBMIT_COLOR -/

/-- The transfer ends at the frame the bus refuses: the priming frame, or a chunk. -/
theorem submitColor_refused {p : List Byte} {j st : Nat} (h : Ready s) (hj : j < chunkCount p.length + 1)
    (hok : BusOk s j) (hfail : answerAt s j = .fail st) :
    submitColor p s = (streamRefused p j s, .ioError st) := by
  cases j with
  | zero =>
    rw [submitColor, openColor_fail h hfail]
    rfl
  | succ k =>
    rw [submitColor, openColor_ok h.1 (hok 0 (Nat.succ_pos k)), andThen_done,
      streamLoop_refused p k _ 0 _ (Nat.zero_add _) (by omega) (by simp [AtChunk]) rfl
        (fun i hi => (answerAt_after_one rfl rfl i).trans (hok (i + 1) (by omega)))
        ((answerAt_after_one rfl rfl k).trans hfail),
      chunkEvents_take (by omega)]
    simp [streamRefused, Config.busMax]
    omega

/-- Everything SUBMIT_COLOR can do on an ACTIVE object. -/
theorem submitColor_cases (h : Ready s) (p : List Byte) :
    submitColor p s = (streamed p s, .done) ∨ ∃ j st, submitColor p s = (streamRefused p j s, .ioError st) := by
  obtain hok | ⟨j, hj, st, hok, hfail⟩ := busOk_or_refused s (chunkCount p.length + 1)
  · exact .inl (submitColor_ok h.1 p hok)
  · exact .inr ⟨j, st, submitColor_refused h hj hok hfail⟩

/-- Settles O11. -/
theorem submitColorStreamsEveryChunk : Obligations.SubmitColorStreamsEveryChunk := fun _ p h hb =>
  exec_eq_next (t := streamed p _) (by simp) h.2 (submitColor_ok h.1 p hb)

/-- Settles O12. -/
theorem submitColorStopsAtTheFirstFailure : Obligations.SubmitColorStopsAtTheFirstFailure := fun _ p _ h =>
  ⟨fun hfail => exec_eq_next (t := streamRefused p 0 _) (by simp) h.2
      (submitColor_refused h (Nat.succ_pos _) (fun k hk => absurd hk (Nat.not_lt_zero k)) hfail),
    fun k hk hok hfail => exec_eq_next (t := streamRefused p (k + 1) _) (by simp) h.2
      (submitColor_refused h (Nat.succ_lt_succ hk) hok hfail)⟩

/-! ### RAMWR and DATA -/

/-- Settles O14. -/
theorem ramwrOpensTheTransfer : Obligations.RamwrOpensTheTransfer := by
  intro s len h
  constructor
  · intro hb
    rw [exec_idle (by simp) h.2, show operation s.cfg (.ramwr len) s = _ from openColor_ok h.1 hb len, finish_mk]
  · intro st hb
    rw [exec_idle (by simp) h.2, show operation s.cfg (.ramwr len) s = _ from openColor_fail h hb len, finish_mk]

/-- Settles O15. -/
theorem dataIsOneTripOfTheLoop : Obligations.DataIsOneTripOfTheLoop := by
  refine fun s d ha => ⟨fun hp hd hlt hb => ?_, fun hp hd heq hb => ?_, fun st hp hd hc hb => ?_,
    fun hp => exec_data_outside ha hp, fun hp hd => exec_data_wrong_length ha hp hd⟩
  · rw [exec_data_chunk ha hp hd, sendChunk_ok hb, if_neg (by omega), finish_mk]
    simp [hp]
  · rw [exec_data_chunk ha hp hd, sendChunk_ok hb, if_pos (by omega), finish_mk]
  · rw [exec_data_chunk ha hp hd, sendChunk_fail hb hc, finish_mk]

theorem performAll_cons {i : Instr} (h : exec i s = .next t) (rest : List Instr) :
    performAll (i :: rest) s = performAll rest t := by
  rw [performAll, h]

/-- The data frames from chunk `k` on, one instruction each, when the bus takes them all. -/
theorem performAll_data (p : List Byte) (n : Nat) : ∀ (k : Nat) (s : State), s.life = .active →
    k + (n + 1) = chunkCount p.length → AtChunk p k s → BusOk s (n + 1) →
    performAll ((List.range' k (n + 1)).map fun j => .data (chunk p j)) s =
      .next
        { s with
          trace := s.trace ++ chunkEvents p k (n + 1) ++ [.cs true], csLevel := true
          seq := { phase := .idle, off := p.length, rem := 0 }
          answers := s.answers.drop (n + 1), asked := s.asked + (n + 1), result := some .done } := by
  induction n with
  | zero =>
    intro k s ha hk hs hok
    have hchunk := exec_data_chunk ha (congrArg Sequencer.phase hs) (chunk_length_eq_next hs)
    rw [sendChunk_last hs hk (hok 0 (Nat.succ_pos 0)), finish_mk] at hchunk
    refine (performAll_cons hchunk _).trans ?_
    simp [performAll, afterLastChunk, chunkEvents]
  | succ n ih =>
    intro k s ha hk hs hok
    have hchunk := exec_data_chunk ha (congrArg Sequencer.phase hs) (chunk_length_eq_next hs)
    rw [sendChunk_not_last hs (by omega) (hok 0 (Nat.succ_pos _)), finish_mk] at hchunk
    have hafter (i : Nat) : answerAt { afterChunk p k s with result := some .done } i = answerAt s (i + 1) :=
      answerAt_after_one rfl rfl i
    rw [List.range'_succ, List.map_cons, performAll_cons hchunk,
      ih (k + 1) { afterChunk p k s with result := some .done } ha (by omega) rfl
        fun i hi => (hafter i).trans (hok (i + 1) (by omega))]
    simp [afterChunk, chunkEvents, List.range'_succ, Nat.add_assoc, Nat.add_comm 1 (n + 1)]

/-- Settles O13: RAMWR opens the transfer of `p` at chunk 0, and the data frames close it. -/
theorem framesRefineSubmitColor : Obligations.FramesRefineSubmitColor := by
  intro s p h hb
  obtain ⟨n, hn⟩ : ∃ n, chunkCount p.length = n + 1 := ⟨_, (Nat.sub_add_cancel (chunkCount_pos _)).symm⟩
  have hchunks : (chunks p).map Instr.data = (List.range' 0 (n + 1)).map fun j => .data (chunk p j) := by
    simp [chunks, hn, List.range_eq_range']
  refine (performAll_cons ((ramwrOpensTheTransfer s p.length h).1 (hb 0 (Nat.succ_pos _))) _).trans ?_
  rw [hchunks]
  refine Eq.trans (performAll_data p n 0 _ h.1 (by omega) (by simp [AtChunk])
    fun i hi => (answerAt_after_one rfl rfl i).trans (hb (i + 1) (by omega))) ?_
  rw [← hn, chunkEvents_all, submitColorStreamsEveryChunk s p h hb]
  simp
  omega

end Sys2Proof.Machine
end

section
/-! `draw` under every answer of the bus (43_drawing_ops.md R190), and drawing operations as lists of calls of it. -/

namespace Sys2Proof.Machine

open Sys2Proof.Safety

variable {s t u : State}

/-! ### The window under every answer -/

theorem setWindow_caset_refused {st : Nat} (h : Ready s) {x0 y0 x1 y1 : Int} (hw : Inside s x0 y0 x1 y1)
    (hfail : answerAt s 0 = .fail st) :
    setWindow x0 y0 x1 y1 s = (failedCommand s.cfg.opCaset (coord4 s.cfg (coord x0) (coord x1)) s, .ioError st) := by
  rw [setWindow, requireActive_active h.1, if_pos (windowOk_iff.mpr hw),
    submitCommand_fail h hfail _ _ (coord4_length_le_busMax _ _ _), andThen_ioError]

/-- A refused RASET clears `win`, the CASET before it was sent (42_panel_protocol_ops.md R162). -/
theorem setWindow_raset_refused {st : Nat} (h : Ready s) {x0 y0 x1 y1 : Int} (hw : Inside s x0 y0 x1 y1)
    (hok : answerAt s 0 = .ok) (hfail : answerAt s 1 = .fail st) :
    setWindow x0 y0 x1 y1 s =
      ({ failedCommand s.cfg.opRaset (coord4 s.cfg (coord y0) (coord y1))
          (sentCommand s.cfg.opCaset (coord4 s.cfg (coord x0) (coord x1)) s) with
          win := none }, .ioError st) := by
  rw [setWindow, requireActive_active h.1, if_pos (windowOk_iff.mpr hw),
    submitCommand_ok h hok _ _ (coord4_length_le_busMax _ _ _), andThen_done,
    submitCommand_fail (ready_sentCommand h) (by rw [answerAt_sentCommand]; exact hfail) _ _
      (coord4_length_le_busMax _ _ _)]
  rfl

theorem setWindow_outside (h : s.life = .active) {x0 y0 x1 y1 : Int} (hw : ¬ Inside s x0 y0 x1 y1) :
    setWindow x0 y0 x1 y1 s = (s, .dropped) :=
  setWindow_dropped h (Bool.eq_false_iff.mpr (windowOk_iff.not.mpr hw))

theorem ready_sentWindow (h : Ready s) (x0 y0 x1 y1 : Int) : Ready (sentWindow x0 y0 x1 y1 s) :=
  ⟨by simpa using h.1, by simpa using h.2⟩

/-- A number read back as a u16. -/
theorem coord_toNat (v : Half) : coord (v.toNat : Int) = v := by simp [coord]

theorem inside_halves {x0 y0 x1 y1 : Half} :
    Inside s x0.toNat y0.toNat x1.toNat y1.toNat ↔
      x0.toNat ≤ x1.toNat ∧ x1.toNat < s.width.toNat ∧ y0.toNat ≤ y1.toNat ∧ y1.toNat < s.height.toNat := by
  simp only [Inside]
  omega

/-- Settles O19. -/
theorem setWindowSendsOrDrops : Obligations.SetWindowSendsOrDrops := by
  intro s x0 y0 x1 y1 h
  have hexec {t : State} {r : Result} (e : setWindow (int x0) (int y0) (int x1) (int y1) s = (t, r)) :
      exec (.setWindow x0 y0 x1 y1) s = .next { t with result := some r } := exec_eq_next (by simp) h.2 e
  simp only [← inside_halves]
  refine ⟨fun hw => ⟨fun hok => ?_, fun st hfail => ?_, fun st hok hfail => ?_⟩,
    fun hw => hexec (setWindow_outside h.1 hw)⟩
  · rw [hexec (setWindow_ok h (windowOk_iff.mpr hw) hok)]
    simp only [sentWindow, int, coord_toNat]
  · rw [hexec (setWindow_caset_refused h hw hfail)]
    simp only [int, coord_toNat]
  · rw [hexec (setWindow_raset_refused h hw hok hfail)]
    simp only [int, coord_toNat]

/-! ### One call of `draw` -/

/-- A call as an operation. -/
def drawOp (d : Draw) : Op := draw d.x0 d.y0 d.x1 d.y1 d.p

/-- The state a call leaves when the bus takes every frame. -/
def drawAfter (d : Draw) (s : State) : State := (drawn d.x0 d.y0 d.x1 d.y1 d.p s).1

/-- A call whose window is dropped, when its colours are streamed all the same. -/
theorem draw_outside (h : s.life = .active) {d : Draw} (hw : ¬ Inside s d.x0 d.y0 d.x1 d.y1)
    (hs : s.cfg.streamAfterDrop ≠ .skip) :
    drawOp d s = andThen (submitColor d.p s) fun t => (t, .dropped) := by
  simp only [drawOp, draw, setWindow_outside h hw]
  simp [Result.isError, hs]

/-- A call ends at the frame the bus refuses, whichever of its frames that is. -/
theorem draw_refused {d : Draw} {j st : Nat} (h : Ready s) (hj : j < d.frames s) (hok : BusOk s j)
    (hfail : answerAt s j = .fail st) : drawOp d s = (d.refused j s, .ioError st) := by
  unfold Draw.frames at hj
  unfold Draw.refused
  split_ifs at hj ⊢ with hw hskip
  · match j with
    | 0 =>
      simp only [drawOp, draw, setWindow_caset_refused h hw hfail]
      rfl
    | 1 =>
      simp only [drawOp, draw, setWindow_raset_refused h hw (hok 0 one_pos) hfail]
      rfl
    | k + 2 =>
      have hsent (i : Nat) := answerAt_sentWindow d.x0 d.y0 d.x1 d.y1 s i
      have hcolor : submitColor d.p (sentWindow d.x0 d.y0 d.x1 d.y1 s) =
          (streamRefused d.p k (sentWindow d.x0 d.y0 d.x1 d.y1 s), .ioError st) :=
        submitColor_refused (ready_sentWindow h ..) (by omega)
          (fun i hi => (hsent i).trans (hok (i + 2) (by omega))) ((hsent k).trans hfail)
      simp only [drawOp, draw, setWindow_ok h (windowOk_iff.mpr hw) fun i hi => hok i (by omega), hcolor]
      rfl
  · exact absurd hj (Nat.not_lt_zero j)
  · rw [draw_outside h.1 hw hskip, submitColor_refused h hj hok hfail]
    rfl

/-- `drawn` is never an error. -/
theorem drawn_not_error (x0 y0 x1 y1 : Int) (p : List Byte) (s : State) :
    (drawn x0 y0 x1 y1 p s).2.isError = false := by
  unfold drawn
  split_ifs <;> rfl

/-! ### Lists of calls -/

/-- What decides about the window of a call: no drawing changes it. -/
structure SamePanel (s u : State) : Prop where
  width : u.width = s.width
  height : u.height = s.height
  cfg : u.cfg = s.cfg
  life : u.life = s.life

theorem SamePanel.refl (s : State) : SamePanel s s := ⟨rfl, rfl, rfl, rfl⟩

theorem SamePanel.trans (h : SamePanel s t) (h' : SamePanel t u) : SamePanel s u :=
  ⟨h'.width.trans h.width, h'.height.trans h.height, h'.cfg.trans h.cfg, h'.life.trans h.life⟩

theorem Draws.samePanel (h : Draws s t) : SamePanel s t := by
  obtain ⟨es, l, q, a, n, w, rfl⟩ := h
  exact ⟨rfl, rfl, rfl, rfl⟩

theorem samePanel_after (d : Draw) (s : State) : SamePanel s (drawAfter d s) := by
  obtain ⟨hw, hh, hc, hl⟩ := drawn_frame d.x0 d.y0 d.x1 d.y1 d.p s
  exact ⟨hw, hh, hc, hl⟩

theorem SamePanel.frames (h : SamePanel s u) (d : Draw) : d.frames u = d.frames s := by
  simp only [Draw.frames, Inside, h.width, h.height, h.cfg]

/-- The state after a list of calls when the bus takes every frame. -/
def drawnAll (ds : List Draw) (s : State) : State := ds.foldl (fun t d => drawAfter d t) s

/-- The frames of a list of calls. -/
def framesAll (ds : List Draw) (s : State) : Nat := (ds.map fun d => d.frames s).sum

theorem framesAll_cons (d : Draw) (ds : List Draw) (s : State) :
    framesAll (d :: ds) s = d.frames s + framesAll ds (drawAfter d s) := by
  simp only [framesAll, List.map_cons, List.sum_cons, (samePanel_after d s).frames]

/-- A list of calls: the state, the panel and the oracle after it. -/
theorem drawnAll_spec (ds : List Draw) (s : State) (h : Ready s) :
    Ready (drawnAll ds s) ∧ SamePanel s (drawnAll ds s) ∧
      ∀ k, answerAt (drawnAll ds s) k = answerAt s (framesAll ds s + k) := by
  induction ds generalizing s with
  | nil => exact ⟨h, .refl s, fun k => by simp [drawnAll, framesAll]⟩
  | cons d ds ih =>
    obtain ⟨hready, hpanel, hanswers⟩ := ih (drawAfter d s) (ready_drawn h)
    refine ⟨hready, (samePanel_after d s).trans hpanel, fun k => (hanswers k).trans ?_⟩
    rw [framesAll_cons, Nat.add_assoc]
    exact drawn_answers d s _

/-- The calls of a composite, one after another, when the bus takes every frame. -/
theorem runDraws_ok (ds : List Draw) (s : State) (h : Ready s) (hb : BusOk s (framesAll ds s)) :
    runAll (ds.map drawOp) s = (drawnAll ds s, .done) := by
  induction ds generalizing s with
  | nil => rfl
  | cons d ds ih =>
    rw [framesAll_cons] at hb
    have hd : drawOp d s = drawn d.x0 d.y0 d.x1 d.y1 d.p s := draw_frames h d fun k hk => hb k (by omega)
    rw [List.map_cons, runAll, hd, andThen_ok (drawn_not_error ..)]
    refine ih (drawAfter d s) (ready_drawn h) fun k hk => ?_
    exact (drawn_answers d s k).trans (hb _ (by omega))

theorem runAll_append (ops ops' : List Op) (s : State) :
    runAll (ops ++ ops') s = andThen (runAll ops s) (runAll ops') := by
  induction ops generalizing s with
  | nil => rfl
  | cons op ops ih =>
    rw [List.cons_append, runAll, runAll]
    cases he : (op s).2.isError with
    | true => rw [andThen_error he, andThen_error he, andThen_error he]
    | false => rw [andThen_ok he, andThen_ok he, ih]

/-- A composite ends at the first refused frame, in whichever of its calls that is. -/
theorem runDraws_refused {before after : List Draw} {d : Draw} {j st : Nat} (h : Ready s) (hj : j < d.frames s)
    (hok : BusOk s (framesAll before s + j)) (hfail : answerAt s (framesAll before s + j) = .fail st) :
    runAll ((before ++ d :: after).map drawOp) s = (d.refused j (drawnAll before s), .ioError st) := by
  obtain ⟨hready, hpanel, hanswers⟩ := drawnAll_spec before s h
  rw [List.map_append, runAll_append, runDraws_ok before s h fun k hk => hok k (by omega), andThen_done, List.map_cons,
    runAll, draw_refused hready (by rwa [hpanel.frames]) (fun k hk => (hanswers k).trans (hok _ (by omega)))
      ((hanswers j).trans hfail), andThen_ioError]

/-! ### Composites of lines -/

/-- Inner operations that each make at most one call, which the panel alone decides, are the list of those calls. -/
theorem runAll_lines {α : Type} (f : α → Op) (call : α → State → Option Draw)
    (hf : ∀ q u, u.life = .active → f q u = drawIf (call q u) u)
    (hcall : ∀ q u, SamePanel s u → call q u = call q s) (hs : s.life = .active) (l : List α) :
    ∀ u, SamePanel s u → runAll (l.map f) u = runAll ((l.filterMap fun q => call q s).map drawOp) u := by
  induction l with
  | nil => exact fun u _ => rfl
  | cons q l ih =>
    intro u hu
    rw [List.map_cons, runAll, hf q u (hu.life.trans hs), hcall q u hu]
    cases hq : call q s with
    | none =>
      simp only [List.filterMap_cons, hq]
      exact ih u hu
    | some d =>
      simp only [List.filterMap_cons, hq, List.map_cons, runAll]
      have hnext : SamePanel s (drawOp d u).1 := hu.trans (draw_draws ..).samePanel
      show andThen (drawOp d u) _ = _
      unfold andThen
      rw [ih _ hnext]

/-- The same for the states they leave when the bus takes every frame. -/
theorem drawnAll_lines {α : Type} (call : α → State → Option Draw)
    (hcall : ∀ q u, SamePanel s u → call q u = call q s) (l : List α) :
    ∀ u, SamePanel s u →
      l.foldl (fun t q => (drawnIf (call q t) t).1) u = drawnAll (l.filterMap fun q => call q s) u := by
  induction l with
  | nil => exact fun u _ => rfl
  | cons q l ih =>
    intro u hu
    rw [List.foldl_cons, hcall q u hu]
    cases hq : call q s with
    | none =>
      simp only [List.filterMap_cons, hq]
      exact ih u hu
    | some d =>
      simp only [List.filterMap_cons, hq]
      exact ih _ (hu.trans (samePanel_after d u))

theorem SamePanel.rowDraw (h : SamePanel s u) (x y w : Int) (c : Half) : rowDraw x y w c u = rowDraw x y w c s := by
  simp only [Safety.rowDraw, pixels, h.width, h.cfg]

theorem SamePanel.columnDraw (h : SamePanel s u) (x y l : Int) (c : Half) :
    columnDraw x y l c u = columnDraw x y l c s := by
  simp only [Safety.columnDraw, pixels, h.height, h.cfg]

end Sys2Proof.Machine
end

section
/-! The drawing operations (43_drawing_ops.md) as their calls of `draw`. -/

namespace Sys2Proof.Machine

open Sys2Proof.Safety

variable {s : State}

/-! ### Operations of at most one call -/

theorem pixel_draw (h : s.life = .active) (x y : Int) (c : Half) :
    pixel x y c s = drawOp ⟨x, y, x, y, col2 s.cfg c⟩ s := requireActive_active h

/-- The pixels of FILL are counted without loss. -/
theorem pixels_area (s : State) (c : Half) (m n : Nat) : pixels s c ((m : Int) * n) = rep (col2 s.cfg c) (m * n) := by
  rw [pixels, rep]
  norm_cast

theorem fill_draw (h : s.life = .active) (c : Half) : fill c s = drawIf (draws s (.fill c)).head? s := by
  rw [fill, requireActive_active h, draws, pixels_area]
  split_ifs <;> rfl

theorem fillRect_draw (h : s.life = .active) (x y w l c : Half) :
    fillRect (int x) (int y) (int w) (int l) c s = drawIf (draws s (.fillRect x y w l c)).head? s := by
  simp only [fillRect, requireActive_active h, draws]
  show (if cut x.toNat w.toNat s.width.toNat = 0 ∨ cut y.toNat l.toNat s.height.toNat = 0 then _ else _) = _
  split_ifs <;> rfl

theorem bitmapLength_eq (x0 y0 x1 y1 : Half) (s : State) :
    bitmapLength x0 y0 x1 y1 s =
      (x1.toNat - x0.toNat) * (y1.toNat - y0.toNat) * (if s.bpp = .bpp16 then 2 else 3) := by
  unfold bitmapLength
  cases s.bpp <;> rfl

/-- A rectangle of no pixels makes no call, whatever the buffer. -/
theorem bitmap_empty (h : s.life = .active) {x0 y0 x1 y1 : Half} (buf : List Byte)
    (he : x1.toNat ≤ x0.toNat ∨ y1.toNat ≤ y0.toNat) : bitmap x0 y0 x1 y1 buf s = (s, .dropped) := by
  rw [bitmap, requireActive_active h, if_pos he]

theorem bitmap_short (h : s.life = .active) {x0 y0 x1 y1 : Half} {buf : List Byte} (hx : x0.toNat < x1.toNat)
    (hy : y0.toNat < y1.toNat) (hbuf : buf.length < bitmapLength x0 y0 x1 y1 s) :
    bitmap x0 y0 x1 y1 buf s = (s, .refused .shortBuffer) := by
  rw [bitmap, requireActive_active h, if_neg (by omega), memRead, if_neg (by omega)]

theorem bitmap_draw (h : s.life = .active) {x0 y0 x1 y1 : Half} {buf : List Byte} (hx : x0.toNat < x1.toNat)
    (hy : y0.toNat < y1.toNat) (hbuf : bitmapLength x0 y0 x1 y1 s ≤ buf.length) :
    bitmap x0 y0 x1 y1 buf s =
      drawOp ⟨x0.toNat + s.xGap.toNat, y0.toNat + s.yGap.toNat, x1.toNat + s.xGap.toNat - 1,
        y1.toNat + s.yGap.toNat - 1, buf.take (bitmapLength x0 y0 x1 y1 s)⟩ s := by
  rw [bitmap, requireActive_active h, if_neg (by omega), memRead, if_pos (by omega), slice, List.drop_zero]
  rfl

/-! ### One call, when the bus takes every frame -/

theorem drawOp_inside (h : Ready s) {d : Draw} (hw : Inside s d.x0 d.y0 d.x1 d.y1)
    (hb : BusOk s (chunkCount d.p.length + 3)) :
    drawOp d s = (streamed d.p (sentWindow d.x0 d.y0 d.x1 d.y1 s), .done) := by
  rw [drawOp, draw_frames h d (by rwa [Draw.frames, if_pos hw]), drawn, if_pos hw]

theorem drawOp_skipped (h : Ready s) {d : Draw} (hw : ¬ Inside s d.x0 d.y0 d.x1 d.y1)
    (hs : s.cfg.streamAfterDrop = .skip) : drawOp d s = (s, .dropped) := by
  have hframes : d.frames s = 0 := by rw [Draw.frames, if_neg hw, if_pos hs]
  rw [drawOp, draw_frames h d fun k hk => by omega, drawn, if_neg hw, if_pos hs]

theorem drawOp_streamed (h : Ready s) {d : Draw} (hw : ¬ Inside s d.x0 d.y0 d.x1 d.y1)
    (hs : s.cfg.streamAfterDrop = .send) (hb : BusOk s (chunkCount d.p.length + 1)) :
    drawOp d s = (streamed d.p s, .dropped) := by
  have hskip : s.cfg.streamAfterDrop ≠ .skip := by simp [hs]
  rw [drawOp, draw_frames h d (by rwa [Draw.frames, if_neg hw, if_neg hskip]), drawn, if_neg hw, if_neg hskip]

/-! ### Coordinates as u16 -/

theorem coord_pred (v : Half) : coord ((v.toNat : Int) - 1) = v - 1 := by
  rw [coord, Int.sub_eq_add_neg, BitVec.ofInt_add, BitVec.sub_eq_add_neg]
  simp

theorem coord_sum (v g : Half) : coord ((v.toNat : Int) + g.toNat) = v + g := by
  rw [coord, BitVec.ofInt_add]
  simp

theorem coord_sum_pred (v g : Half) : coord ((v.toNat : Int) + g.toNat - 1) = v + g - 1 := by
  rw [coord, Int.sub_eq_add_neg, BitVec.ofInt_add, BitVec.ofInt_add, BitVec.sub_eq_add_neg]
  simp

/-- A length clipped at the far edge, between u16 (43_drawing_ops.md R197). -/
theorem cut_nat (a n B : Nat) : cut a n B = ((min n (B - a) : Nat) : Int) := by
  unfold cut
  split_ifs <;> omega

/-! ### PIXEL, FILL, FILL_RECT -/

theorem col2_bytes (P : Params) (c : Half) :
    col2 P c =
      if P.colorOrder = .hiFirst then [BitVec.ofNat 8 (c.toNat / 256), BitVec.ofNat 8 (c.toNat % 256)]
      else [BitVec.ofNat 8 (c.toNat % 256), BitVec.ofNat 8 (c.toNat / 256)] := by
  rw [← hi_toNat, ← lo_toNat]
  unfold col2
  cases P.colorOrder <;> simp

theorem chunkCount_two : chunkCount 2 = 1 := by decide

theorem inside_pixel {x y : Int} :
    Inside s x y x y ↔ 0 ≤ x ∧ x < (s.width.toNat : Int) ∧ 0 ≤ y ∧ y < (s.height.toNat : Int) := by
  simp only [Inside]
  omega

/-- Settles O29. -/
theorem pixelDrawsItsWindow : Obligations.PixelDrawsItsWindow := by
  intro s x y c q h hq
  have hcol : col2 s.cfg c = q := (col2_bytes s.cfg c).trans hq.symm
  have hlen : chunkCount q.length = 1 := by rw [← hcol, col2_length, chunkCount_two]
  have hexec {t : State} {r : Result} (e : drawOp ⟨x.toNat, y.toNat, x.toNat, y.toNat, q⟩ s = (t, r)) :
      exec (.pixel x y c) s = .next { t with result := some r } :=
    exec_eq_next (by simp) h.2 ((pixel_draw h.1 _ _ c).trans (hcol ▸ e))
  have hiff : Inside s x.toNat y.toNat x.toNat y.toNat ↔ x.toNat < s.width.toNat ∧ y.toNat < s.height.toNat := by
    rw [inside_pixel]
    omega
  refine ⟨hcol, fun hx hy hb => ?_, fun hw hs => ?_, fun hw hs hb => ?_⟩
  · rw [hexec (drawOp_inside h (hiff.mpr ⟨hx, hy⟩) (by rwa [hlen]))]
    simp only [sentWindow, coord_toNat]
    rfl
  · exact hexec (drawOp_skipped h (hiff.not.mpr hw) hs)
  · exact hexec (drawOp_streamed h (hiff.not.mpr hw) hs (by rwa [hlen]))

/-- Settles O30. -/
theorem fillStreamsTheWholePanel : Obligations.FillStreamsTheWholePanel := by
  rintro s c p h rfl
  have hexec {t : State} {r : Result} (e : drawIf (draws s (.fill c)).head? s = (t, r)) :
      exec (.fill c) s = .next { t with result := some r } :=
    exec_eq_next (by simp) h.2 ((fill_draw h.1 c).trans e)
  refine ⟨fun hw hh hb => ?_, fun he => hexec ?_⟩
  · have hne : ¬ (s.width = 0 ∨ s.height = 0) := by
      rintro (he | he) <;> simp [he] at hw hh
    have hdraws : draws s (.fill c) =
        [⟨0, 0, (s.width.toNat : Int) - 1, (s.height.toNat : Int) - 1,
          (List.replicate (s.width.toNat * s.height.toNat) (col2 s.cfg c)).flatten⟩] := by
      rw [draws, if_neg hne, pixels_area, rep]
    rw [hexec (t := streamed _ (sentWindow _ _ _ _ s)) (by
      rw [hdraws]
      exact drawOp_inside h (by simp only [Inside]; omega) hb)]
    simp only [sentWindow, coord_pred]
    rfl
  · rw [draws, if_pos he]
    rfl

/-- Settles O31. -/
theorem fillRectDrawsTheClippedRectangle : Obligations.FillRectDrawsTheClippedRectangle := by
  rintro s x y w l c w' l' p h hw' hl' rfl
  have hexec {t : State} {r : Result} (e : drawIf (draws s (.fillRect x y w l c)).head? s = (t, r)) :
      exec (.fillRect x y w l c) s = .next { t with result := some r } :=
    exec_eq_next (by simp) h.2 ((fillRect_draw h.1 x y w l c).trans e)
  have hw : cut x.toNat w.toNat s.width.toNat = w' := by rw [cut_nat, hw']
  have hl : cut y.toNat l.toNat s.height.toNat = l' := by rw [cut_nat, hl']
  refine ⟨fun hwpos hlpos hb => ?_, fun he => hexec ?_⟩
  · have hdraws : draws s (.fillRect x y w l c) =
        [⟨x.toNat, y.toNat, x.toNat + w' - 1, y.toNat + l' - 1,
          (List.replicate (w' * l') (col2 s.cfg c)).flatten⟩] := by
      simp only [draws, hw, hl]
      rw [if_neg (by omega), pixels_area, rep]
    refine hexec (t := streamed _ (sentWindow _ _ _ _ s)) ?_
    rw [hdraws]
    exact drawOp_inside h (by simp only [Inside]; omega) hb
  · simp only [draws, hw, hl]
    rw [if_pos (by omega)]
    rfl

/-! ### HLINE and VLINE -/

theorem rowDraw_none {x y w : Int} {c : Half} (h0 : cut x w s.width.toNat = 0) : rowDraw x y w c s = none := if_pos h0

theorem rowDraw_some {x y w : Int} {c : Half} (h0 : cut x w s.width.toNat ≠ 0) :
    rowDraw x y w c s =
      some ⟨x, y, x + cut x w s.width.toNat - 1, y, pixels s c (cut x w s.width.toNat)⟩ := if_neg h0

theorem columnDraw_none {x y l : Int} {c : Half} (h0 : cut y l s.height.toNat = 0) :
    columnDraw x y l c s = none := if_pos h0

theorem columnDraw_some {x y l : Int} {c : Half} (h0 : cut y l s.height.toNat ≠ 0) :
    columnDraw x y l c s =
      some ⟨x, y, x, y + cut y l s.height.toNat - 1, pixels s c (cut y l s.height.toNat)⟩ := if_neg h0

/-- Settles O32. -/
theorem hlineDrawsTheClippedRow : Obligations.HlineDrawsTheClippedRow := by
  rintro s x y w c w' p h hw' rfl
  have hexec {t : State} {r : Result} (e : drawIf (rowDraw x.toNat y.toNat w.toNat c s) s = (t, r)) :
      exec (.hline x y w c) s = .next { t with result := some r } :=
    exec_eq_next (by simp) h.2 ((hline_draw h.1 _ _ _ c).trans e)
  have hcut : cut x.toNat w.toNat s.width.toNat = w' := by rw [cut_nat, hw']
  have hrow (hpos : 0 < w') : rowDraw x.toNat y.toNat w.toNat c s =
      some ⟨x.toNat, y.toNat, x.toNat + w' - 1, y.toNat, (List.replicate w' (col2 s.cfg c)).flatten⟩ := by
    rw [rowDraw_some (by omega), hcut]
    rfl
  refine ⟨fun hpos hy hb => hexec ?_, fun hpos hy hs => hexec ?_, fun hpos hy hs hb => hexec ?_, fun h0 => hexec ?_⟩
  · rw [hrow hpos]
    exact drawOp_inside h (by simp only [Inside]; omega) hb
  · rw [hrow hpos]
    exact drawOp_skipped h (by simp only [Inside]; omega) hs
  · rw [hrow hpos]
    exact drawOp_streamed h (by simp only [Inside]; omega) hs hb
  · rw [rowDraw_none (by omega)]
    rfl

/-- Settles O33. -/
theorem vlineDrawsTheClippedColumn : Obligations.VlineDrawsTheClippedColumn := by
  rintro s x y l c l' p h hl' rfl
  have hexec {t : State} {r : Result} (e : drawIf (columnDraw x.toNat y.toNat l.toNat c s) s = (t, r)) :
      exec (.vline x y l c) s = .next { t with result := some r } :=
    exec_eq_next (by simp) h.2 ((vline_draw h.1 _ _ _ c).trans e)
  have hcut : cut y.toNat l.toNat s.height.toNat = l' := by rw [cut_nat, hl']
  have hcolumn (hpos : 0 < l') : columnDraw x.toNat y.toNat l.toNat c s =
      some ⟨x.toNat, y.toNat, x.toNat, y.toNat + l' - 1, (List.replicate l' (col2 s.cfg c)).flatten⟩ := by
    rw [columnDraw_some (by omega), hcut]
    rfl
  refine ⟨fun hpos hx hb => hexec ?_, fun hpos hx hs => hexec ?_, fun hpos hx hs hb => hexec ?_, fun h0 => hexec ?_⟩
  · rw [hcolumn hpos]
    exact drawOp_inside h (by simp only [Inside]; omega) hb
  · rw [hcolumn hpos]
    exact drawOp_skipped h (by simp only [Inside]; omega) hs
  · rw [hcolumn hpos]
    exact drawOp_streamed h (by simp only [Inside]; omega) hs hb
  · rw [columnDraw_none (by omega)]
    rfl

/-! ### BITMAP -/

/-- Settles O34. -/
theorem bitmapStreamsTheBufferAtTheGaps : Obligations.BitmapStreamsTheBufferAtTheGaps := by
  intro s x0 y0 x1 y1 buf L h hL
  rw [← bitmapLength_eq] at hL
  have hexec {t : State} {r : Result} (e : bitmap x0 y0 x1 y1 buf s = (t, r)) :
      exec (.bitmap x0 y0 x1 y1 buf) s = .next { t with result := some r } := exec_eq_next (by simp) h.2 e
  refine ⟨fun hx hy hbuf => ?_, fun hx hy hshort => hexec (bitmap_short h.1 hx hy (hL ▸ hshort)),
    fun he => hexec (bitmap_empty h.1 buf he)⟩
  have hdraw := bitmap_draw h.1 hx hy (hL ▸ hbuf)
  rw [← hL] at hdraw
  have hlen : (buf.take L).length = L := List.length_take_of_le hbuf
  have hiff : Inside s ((x0.toNat : Int) + s.xGap.toNat) ((y0.toNat : Int) + s.yGap.toNat)
      ((x1.toNat : Int) + s.xGap.toNat - 1) ((y1.toNat : Int) + s.yGap.toNat - 1) ↔
      x1.toNat + s.xGap.toNat ≤ s.width.toNat ∧ y1.toNat + s.yGap.toNat ≤ s.height.toNat := by
    simp only [Inside]
    omega
  refine ⟨fun hw hh hb => ?_, fun hw => ⟨fun hs => ?_, fun hs hb => ?_⟩⟩
  · rw [hexec (hdraw.trans (drawOp_inside h (hiff.mpr ⟨hw, hh⟩) (by rwa [hlen])))]
    simp only [sentWindow, coord_sum, coord_sum_pred]
    rfl
  · exact hexec (hdraw.trans (drawOp_skipped h (hiff.not.mpr hw) hs))
  · exact hexec (hdraw.trans (drawOp_streamed h (hiff.not.mpr hw) hs (by rwa [hlen])))

end Sys2Proof.Machine
end

section
/-! RECT, CIRCLE and FILL_CIRCLE (44_raster_ops.md) as their calls of `draw`, and where any drawing operation stops. -/

namespace Sys2Proof.Machine

open Sys2Proof.Safety

variable {s : State}

/-! ### Lines -/

/-- A row or a column of a composite: its first pixel and its length. -/
inductive Line where
  | row (x y w : Int)
  | column (x y l : Int)

/-- The line as an inner operation. -/
def Line.op (c : Half) : Line → Op
  | .row x y w => hline x y w c
  | .column x y l => vline x y l c

/-- The call it makes, if any. -/
def Line.call (c : Half) : Line → State → Option Draw
  | .row x y w, s => rowDraw x y w c s
  | .column x y l, s => columnDraw x y l c s

theorem Line.op_eq (c : Half) (a : Line) (u : State) (h : u.life = .active) : a.op c u = drawIf (a.call c u) u := by
  cases a with
  | row x y w => exact hline_draw h x y w c
  | column x y l => exact vline_draw h x y l c

theorem Line.call_eq (c : Half) (a : Line) (u : State) (h : SamePanel s u) : a.call c u = a.call c s := by
  cases a with
  | row x y w => exact h.rowDraw x y w c
  | column x y l => exact h.columnDraw x y l c

/-- The four lines of RECT, in order. -/
def rectLines (x y w h : Half) : List Line :=
  [.row x.toNat y.toNat w.toNat, .row x.toNat (y.toNat + h.toNat - 1) w.toNat, .column x.toNat y.toNat h.toNat,
   .column (x.toNat + w.toNat - 1) y.toNat h.toNat]

theorem draws_rect {x y w h : Half} (hne : ¬ (w = 0 ∨ h = 0)) (c : Half) :
    draws s (.rect x y w h c) = (rectLines x y w h).filterMap fun a => a.call c s := by
  rw [draws, if_neg hne]
  rfl

theorem rect_draw (ha : s.life = .active) {x y w h : Half} (hne : ¬ (w = 0 ∨ h = 0)) (c : Half) :
    rect x y w h c s = runAll ((draws s (.rect x y w h c)).map drawOp) s := by
  rw [rect, requireActive_active ha, if_neg hne, draws_rect hne]
  exact runAll_lines (Line.op c) (Line.call c) (Line.op_eq c) (Line.call_eq c) ha (rectLines x y w h) s (.refl s)

/-- The call of a pixel of CIRCLE. -/
def pointDraw (c : Half) (q : Int × Int) (s : State) : Draw := ⟨q.1, q.2, q.1, q.2, col2 s.cfg c⟩

theorem draws_circle {r : I32} (hr : ¬ r.toInt < 0) (xm ym : I32) (c : Half) :
    draws s (.circle xm ym r c) =
      (circlePoints xm.toInt ym.toInt r.toInt).filterMap fun q => some (pointDraw c q s) := by
  rw [draws, if_neg hr, List.filterMap_eq_map']
  rfl

theorem circle_draw (ha : s.life = .active) {r : I32} (hr : ¬ r.toInt < 0) (xm ym : I32) (c : Half) :
    circle xm.toInt ym.toInt r.toInt c s = runAll ((draws s (.circle xm ym r c)).map drawOp) s := by
  rw [circle, requireActive_active ha, if_neg hr, draws_circle hr]
  exact runAll_lines (fun q : Int × Int => pixel q.1 q.2 c) (fun q u => some (pointDraw c q u))
    (fun q u hu => pixel_draw hu q.1 q.2 c) (fun q u hu => by simp only [pointDraw, hu.cfg]) ha _ s (.refl s)

theorem draws_fillCircle {r : I32} (hr : ¬ r.toInt < 0) (xm ym : I32) (c : Half) :
    draws s (.fillCircle xm ym r c) =
      (circleSpans xm.toInt ym.toInt r.toInt).filterMap fun q => columnDraw q.1 q.2.1 q.2.2 c s := by
  rw [draws, if_neg hr]

theorem fillCircle_draw (ha : s.life = .active) {r : I32} (hr : ¬ r.toInt < 0) (xm ym : I32) (c : Half) :
    fillCircle xm.toInt ym.toInt r.toInt c s = runAll ((draws s (.fillCircle xm ym r c)).map drawOp) s := by
  rw [fillCircle, requireActive_active ha, if_neg hr, draws_fillCircle hr]
  exact runAll_lines (fun q : Int × Int × Int => vline q.1 q.2.1 q.2.2 c) (fun q => columnDraw q.1 q.2.1 q.2.2 c)
    (fun q u hu => vline_draw hu q.1 q.2.1 q.2.2 c) (fun q u hu => hu.columnDraw ..) ha _ s (.refl s)

/-! ### Every drawing operation -/

theorem draws_bitmap (x0 y0 x1 y1 : Half) (buf : List Byte) (s : State) :
    draws s (.bitmap x0 y0 x1 y1 buf) =
      if x1.toNat ≤ x0.toNat ∨ y1.toNat ≤ y0.toNat ∨ buf.length < bitmapLength x0 y0 x1 y1 s then []
      else
        [⟨x0.toNat + s.xGap.toNat, y0.toNat + s.yGap.toNat, x1.toNat + s.xGap.toNat - 1, y1.toNat + s.yGap.toNat - 1,
          buf.take (bitmapLength x0 y0 x1 y1 s)⟩] := by
  simp only [draws, bitmapLength_eq]

/-- The operations of 43_drawing_ops.md and 44_raster_ops.md. -/
def drawing : Instr → Bool
  | .pixel _ _ _ | .fill _ | .fillRect _ _ _ _ _ | .hline _ _ _ _ | .vline _ _ _ _ | .bitmap _ _ _ _ _
  | .rect _ _ _ _ _ | .circle _ _ _ _ | .fillCircle _ _ _ _ => true
  | _ => false

theorem draws_of_not_drawing {i : Instr} (h : drawing i = false) (s : State) : draws s i = [] := by
  cases i with
  | pixel | fill | fillRect | hline | vline | bitmap | rect | circle | fillCircle => 
    exact absurd h.symm Bool.false_ne_true
  | _ => rfl

/-- What an operation makes of its calls: nothing, its one call, or all of them one after another. -/
def PerformsDraws (i : Instr) (s : State) : Prop :=
  (draws s i = [] ∧ (operation s.cfg i s).1 = s) ∨
    (∃ d, draws s i = [d] ∧ operation s.cfg i s = drawOp d s) ∨
    operation s.cfg i s = runAll ((draws s i).map drawOp) s

theorem performsDraws_of_head {i : Instr} (h : operation s.cfg i s = drawIf (draws s i).head? s)
    (hlen : (draws s i).length ≤ 1) : PerformsDraws i s := by
  match hd : draws s i with
  | [] =>
    rw [hd] at h
    exact .inl ⟨hd, by rw [h]; rfl⟩
  | [d] =>
    rw [hd] at h
    exact .inr (.inl ⟨d, hd, h⟩)
  | d :: e :: rest =>
    rw [hd] at hlen
    simp at hlen

theorem performsDraws (h : s.life = .active) {i : Instr} (hi : drawing i = true) : PerformsDraws i s := by
  cases i with
  | pixel x y c => exact .inr (.inl ⟨_, rfl, pixel_draw h _ _ c⟩)
  | fill c =>
    refine performsDraws_of_head (fill_draw h c) ?_
    rw [draws]
    split_ifs <;> simp
  | fillRect x y w l c =>
    refine performsDraws_of_head (fillRect_draw h x y w l c) ?_
    simp only [draws]
    split_ifs <;> simp
  | hline x y w c =>
    refine performsDraws_of_head ?_ (Option.length_toList_le)
    rw [draws, Option.head?_toList]
    exact hline_draw h _ _ _ c
  | vline x y l c =>
    refine performsDraws_of_head ?_ (Option.length_toList_le)
    rw [draws, Option.head?_toList]
    exact vline_draw h _ _ _ c
  | bitmap x0 y0 x1 y1 buf =>
    have hdraws := draws_bitmap x0 y0 x1 y1 buf s
    by_cases he : x1.toNat ≤ x0.toNat ∨ y1.toNat ≤ y0.toNat
    · exact .inl ⟨by rw [hdraws, if_pos (by omega)], congrArg Prod.fst (bitmap_empty h buf he)⟩
    · by_cases hb : buf.length < bitmapLength x0 y0 x1 y1 s
      · exact .inl ⟨by rw [hdraws, if_pos (by omega)],
          congrArg Prod.fst (bitmap_short h (by omega) (by omega) hb)⟩
      · exact .inr (.inl ⟨_, by rw [hdraws, if_neg (by omega)], bitmap_draw h (by omega) (by omega) (by omega)⟩)
  | rect x y w l c =>
    by_cases hne : w = 0 ∨ l = 0
    · refine .inl ⟨if_pos hne, ?_⟩
      show (rect x y w l c s).1 = s
      rw [rect, requireActive_active h, if_pos hne]
    · exact .inr (.inr (rect_draw h hne c))
  | circle xm ym r c =>
    by_cases hr : r.toInt < 0
    · refine .inl ⟨if_pos hr, ?_⟩
      show (circle xm.toInt ym.toInt r.toInt c s).1 = s
      rw [circle, requireActive_active h, if_pos hr]
    · exact .inr (.inr (circle_draw h hr xm ym c))
  | fillCircle xm ym r c =>
    by_cases hr : r.toInt < 0
    · refine .inl ⟨if_pos hr, ?_⟩
      show (fillCircle xm.toInt ym.toInt r.toInt c s).1 = s
      rw [fillCircle, requireActive_active h, if_pos hr]
    · exact .inr (.inr (fillCircle_draw h hr xm ym c))
  | _ => exact absurd hi Bool.false_ne_true

/-! ### The first refused frame -/

/-- Where a drawing operation stops, as an outcome. -/
theorem exec_drawing_refused {i : Instr} {before after : List Draw} {d : Draw} {j st : Nat} (h : Ready s)
    (hdraws : draws s i = before ++ d :: after) (hj : j < d.frames s) (hok : BusOk s (framesAll before s + j))
    (hfail : answerAt s (framesAll before s + j) = .fail st) :
    exec i s = .next { d.refused j (drawnAll before s) with result := some (.ioError st) } := by
  have hi : drawing i = true := by
    by_contra hn
    rw [draws_of_not_drawing (Bool.eq_false_iff.mpr hn)] at hdraws
    simp at hdraws
  have hdata (b : List Byte) : i ≠ .data b := by
    rintro rfl
    exact absurd hi Bool.false_ne_true
  refine exec_eq_next hdata h.2 ?_
  obtain ⟨he, -⟩ | ⟨e, he, hop⟩ | hop := performsDraws h.1 hi
  · rw [he] at hdraws
    simp at hdraws
  · rw [hdraws] at he
    obtain ⟨rfl, he⟩ := List.append_eq_singleton_iff.mp he |>.resolve_right (by simp)
    obtain ⟨rfl, rfl⟩ := List.cons.inj he
    simp only [framesAll, List.map_nil, List.sum_nil, Nat.zero_add] at hok hfail
    exact hop.trans (draw_refused h hj hok hfail)
  · rw [hop, hdraws]
    exact runDraws_refused h hj hok hfail

/-- The spec's registers after a window was sent: `win`, and chip-select high. -/
theorem sentWindow_toQpc (x0 y0 x1 y1 : Int) (s : State) :
    (sentWindow x0 y0 x1 y1 s).toQpc =
      { s.toQpc with csLevel := true, win := some ⟨coord x0, coord y0, coord x1, coord y1⟩ } := by
  simp [sentWindow, sentCommand, failedCommand]

/-- A call whose window was taken is refused in its stream. -/
theorem refused_stream {d : Draw} (hw : Inside s d.x0 d.y0 d.x1 d.y1) (k : Nat) :
    d.refused (k + 2) s = streamRefused d.p k (sentWindow d.x0 d.y0 d.x1 d.y1 s) := if_pos hw

/-- A payload of two bytes is one chunk. -/
theorem chunks_two {p : List Byte} (hp : p.length = 2) : chunks p = [p] := by
  have hcount : chunkCount p.length = 1 := by rw [hp, chunkCount_two]
  have hchunk : chunk p 0 = p := by
    rw [chunk_eq_take_drop, Nat.zero_mul, List.drop_zero, List.take_of_length_le (by simp [hp, Config.busMax])]
  rw [chunks, hcount, List.range_one, List.map_singleton, hchunk]

/-- Settles O35: the list of calls up to the refused frame; PIXEL is a list of one call. -/
theorem failedDrawingStopsAtTheRefusedFrame : Obligations.FailedDrawingStopsAtTheRefusedFrame := by
  constructor
  · rintro s i before after d t n j st h hdraws rfl rfl hj hok hfail
    exact exec_drawing_refused h hdraws hj hok hfail
  · intro s x y c st h hx hy
    have hw : Inside s x.toNat y.toNat x.toNat y.toNat := inside_pixel.mpr (by omega)
    have hframes : (Draw.frames ⟨x.toNat, y.toNat, x.toNat, y.toNat, col2 s.cfg c⟩ s) = 4 := by
      rw [Draw.frames, if_pos hw, col2_length, chunkCount_two]
    have hrefused (k : Nat) (hk : k < 2) (hok : BusOk s (k + 2)) (hfail : answerAt s (k + 2) = .fail st) :
        exec (.pixel x y c) s =
          .next
            { streamRefused (col2 s.cfg c) k (sentWindow x.toNat y.toNat x.toNat y.toNat s) with
              result := some (.ioError st) } := by
      rw [← refused_stream (d := ⟨x.toNat, y.toNat, x.toNat, y.toNat, col2 s.cfg c⟩) hw k]
      exact exec_drawing_refused (before := []) (after := []) h rfl (by omega)
        (by simpa [framesAll] using hok) (by simpa [framesAll] using hfail)
    refine ⟨fun hok hfail => (hrefused 0 (by decide) hok hfail).trans ?_,
      fun hok hfail => (hrefused 1 (by decide) hok hfail).trans ?_⟩
    · simp [streamRefused, sentWindow_toQpc]
    · simp [streamRefused, chunks_two]

end Sys2Proof.Machine
end

section
/-! The circle recurrence (44_raster_ops.md R213) and what the composites draw (R210 to R212). -/

namespace Sys2Proof.Machine

open Sys2Proof.Safety

variable {s : State}

/-! ### The circle recurrence -/

/-- Every trip shortens the way from `x` to `y`, so trips beyond its length change nothing. -/
theorem circleLoop_enough (n : Nat) : ∀ (extra : Nat) (x y p : Int), (y + 1 - x).toNat ≤ n →
    circleLoop (n + extra) x y p = circleLoop n x y p := by
  induction n with
  | zero =>
    intro extra x y p hn
    have hxy : ¬ x ≤ y := by omega
    cases extra with
    | zero => rfl
    | succ m => simp [circleLoop, hxy]
  | succ n ih =>
    intro extra x y p hn
    rw [Nat.succ_add, circleLoop, circleLoop]
    split_ifs
    · rw [ih _ _ _ _ (by omega)]
    · rw [ih _ _ _ _ (by omega)]
    · rfl

/-- The loop's own test, with `x` growing and `y` not. -/
theorem circleLoop_octant (n : Nat) : ∀ (x y p : Int), ∀ q ∈ circleLoop n x y p, x ≤ q.1 ∧ q.1 ≤ q.2 ∧ q.2 ≤ y := by
  induction n with
  | zero => exact fun x y p q hq => absurd hq List.not_mem_nil
  | succ n ih =>
    intro x y p q hq
    rw [circleLoop] at hq
    split_ifs at hq with hxy hp
    · obtain rfl | hq := List.mem_cons.mp hq
      · exact ⟨le_rfl, hxy, le_rfl⟩
      · obtain ⟨hx, hmid, hy⟩ := ih _ _ _ q hq
        exact ⟨by omega, hmid, hy⟩
    · obtain rfl | hq := List.mem_cons.mp hq
      · exact ⟨le_rfl, hxy, le_rfl⟩
      · obtain ⟨hx, hmid, hy⟩ := ih _ _ _ q hq
        exact ⟨by omega, hmid, by omega⟩
    · exact absurd hq List.not_mem_nil

/-- Settles O39. -/
theorem circleLoopEndsByItsTest : Obligations.CircleLoopEndsByItsTest := fun r hr =>
  ⟨fun extra => circleLoop_enough _ extra 0 r _ (by omega), circleLoop_octant _ 0 r _⟩

/-- Settles O40: the loop is evaluated. -/
theorem circleStepsOfTheRule : Obligations.CircleStepsOfTheRule := by
  unfold Obligations.CircleStepsOfTheRule
  decide

theorem mem_circlePoints {xm ym r : Int} {q : Int × Int} :
    q ∈ circlePoints xm ym r ↔ ∃ x y, (x, y) ∈ circleSteps r ∧
      (q = (xm + x, ym + y) ∨ q = (xm - x, ym + y) ∨ q = (xm + x, ym - y) ∨ q = (xm - x, ym - y) ∨
        q = (xm + y, ym + x) ∨ q = (xm - y, ym + x) ∨ q = (xm + y, ym - x) ∨ q = (xm - y, ym - x)) := by
  simp [circlePoints, octantPoints]

theorem mem_circleSpans {xm ym r : Int} {q : Int × Int × Int} :
    q ∈ circleSpans xm ym r ↔ ∃ x y, (x, y) ∈ circleSteps r ∧
      (q = (xm + x, ym - y, 2 * y + 1) ∨ q = (xm - x, ym - y, 2 * y + 1) ∨
        q = (xm + y, ym - x, 2 * x + 1) ∨ q = (xm - y, ym - x, 2 * x + 1)) := by
  simp [circleSpans, octantSpans]

/-- The eight images of a step are the points at its two distances from the centre's axes, in either order. -/
theorem image_iff {xm ym x y a b : Int} :
    (a = xm + x ∧ b = ym + y ∨ a = xm - x ∧ b = ym + y ∨ a = xm + x ∧ b = ym - y ∨ a = xm - x ∧ b = ym - y ∨
      a = xm + y ∧ b = ym + x ∨ a = xm - y ∧ b = ym + x ∨ a = xm + y ∧ b = ym - x ∨ a = xm - y ∧ b = ym - x) ↔
      (a - xm).natAbs = x.natAbs ∧ (b - ym).natAbs = y.natAbs ∨
        (a - xm).natAbs = y.natAbs ∧ (b - ym).natAbs = x.natAbs := by
  simp only [Int.natAbs_eq_natAbs_iff, sub_eq_iff_eq_add', ← sub_eq_add_neg, and_or_left, or_and_right, or_assoc]

/-- Settles O41: a reflection keeps the two distances, or exchanges them. -/
theorem circlePointsAreSymmetric : Obligations.CirclePointsAreSymmetric := by
  refine fun xm ym r => ⟨fun q => mem_circlePoints, fun ⟨a, b⟩ hq => ?_, fun col => mem_circleSpans⟩
  have ha : 2 * xm - a - xm = -(a - xm) := by ring
  have hb : 2 * ym - b - ym = -(b - ym) := by ring
  simp only [mem_circlePoints, Prod.mk.injEq, image_iff, ha, hb, Int.natAbs_neg, add_sub_cancel_left] at hq ⊢
  obtain ⟨x, y, hstep, himage⟩ := hq
  exact ⟨⟨x, y, hstep, himage⟩, ⟨x, y, hstep, himage⟩, ⟨x, y, hstep, himage.symm.imp And.symm And.symm⟩⟩

/-! ### How many answers a composite asks for -/

/-- A bound for each inner operation bounds the whole. -/
theorem framesAll_filterMap_le {α : Type} {call : α → Option Draw} {bound : α → Nat} (l : List α)
    (h : ∀ q ∈ l, ∀ d, call q = some d → d.frames s ≤ bound q) :
    framesAll (l.filterMap call) s ≤ (l.map bound).sum := by
  induction l with
  | nil => exact le_rfl
  | cons q l ih =>
    have hrest := ih fun e he => h e (List.mem_cons_of_mem q he)
    rw [List.map_cons, List.sum_cons]
    cases hq : call q with
    | none =>
      simp only [List.filterMap_cons, hq]
      omega
    | some d =>
      have hd := h q (List.mem_cons_self) d hq
      simp only [List.filterMap_cons, hq, framesAll, List.map_cons, List.sum_cons] at hrest ⊢
      omega

@[simp] theorem pixels_length (s : State) (c : Half) (n : Int) : (pixels s c n).length = n.toNat * 2 := by
  simp [pixels]

/-- A line of at most 65535 pixels is at most four chunks, beside its window's two frames and the priming frame. -/
theorem lineFrames_le {x0 y0 x1 y1 n : Int} (c : Half) (hn : n ≤ 65535) :
    Draw.frames ⟨x0, y0, x1, y1, pixels s c n⟩ s ≤ 7 := by
  refine (frames_le _ s).trans ?_
  simp only [drawAsks, pixels_length, chunkCount, Config.busMax]
  omega

theorem cut_le {a n B : Int} (hn : 0 ≤ n) : cut a n B ≤ n := by
  unfold cut
  split_ifs <;> omega

/-! ### RECT -/

theorem rectLines_frames_le (x y w l c : Half) :
    ∀ q ∈ rectLines x y w l, ∀ d, q.call c s = some d → d.frames s ≤ 7 := by
  have row (a b : Int) (n : Half) (d : Draw) (hd : rowDraw a b n.toNat c s = some d) : d.frames s ≤ 7 := by
    unfold rowDraw at hd
    split_ifs at hd
    cases hd
    exact lineFrames_le c ((cut_le (by omega)).trans (by have := n.isLt; omega))
  have column (a b : Int) (n : Half) (d : Draw) (hd : columnDraw a b n.toNat c s = some d) : d.frames s ≤ 7 := by
    unfold columnDraw at hd
    split_ifs at hd
    cases hd
    exact lineFrames_le c ((cut_le (by omega)).trans (by have := n.isLt; omega))
  simp only [rectLines, List.mem_cons, List.not_mem_nil, or_false]
  rintro q (rfl | rfl | rfl | rfl) d hd
  · exact row _ _ _ d hd
  · exact row _ _ _ d hd
  · exact column _ _ _ d hd
  · exact column _ _ _ d hd

theorem drawn_inside {x0 y0 x1 y1 : Int} (hw : Inside s x0 y0 x1 y1) (p : List Byte) :
    drawn x0 y0 x1 y1 p s = (streamed p (sentWindow x0 y0 x1 y1 s), .done) := if_pos hw

theorem drawn_outside {x0 y0 x1 y1 : Int} (hw : ¬ Inside s x0 y0 x1 y1) (p : List Byte) :
    drawn x0 y0 x1 y1 p s = (if s.cfg.streamAfterDrop = .skip then s else streamed p s, .dropped) := by
  rw [drawn, if_neg hw]
  split_ifs <;> rfl

theorem cut_inside {a n B : Int} (h : a < B) : cut a n B = min n (B - a) := if_neg (not_le.mpr h)

theorem cut_beyond {a n B : Int} (h : B ≤ a) : cut a n B = 0 := if_pos h

theorem hlineDrawn_beyond {a b n : Int} (c : Half) (h : (s.width.toNat : Int) ≤ a) :
    hlineDrawn a b n c s = (s, .dropped) := by
  rw [hlineDrawn, rowDraw_none (cut_beyond h)]
  rfl

theorem hlineDrawn_cut {a b n : Int} (c : Half) (hn : 0 < n) (h : a < s.width.toNat) :
    hlineDrawn a b n c s =
      drawn a b (min (a + n) s.width.toNat - 1) b (pixels s c (min n (s.width.toNat - a))) s := by
  have hfar : a + min n ((s.width.toNat : Int) - a) - 1 = min (a + n) s.width.toNat - 1 := by omega
  rw [hlineDrawn, rowDraw_some (by rw [cut_inside h]; omega), cut_inside h, hfar]
  rfl

theorem vlineDrawn_beyond {a b n : Int} (c : Half) (h : (s.height.toNat : Int) ≤ b) :
    vlineDrawn a b n c s = (s, .dropped) := by
  rw [vlineDrawn, columnDraw_none (cut_beyond h)]
  rfl

theorem vlineDrawn_cut {a b n : Int} (c : Half) (hn : 0 < n) (h : b < s.height.toNat) :
    vlineDrawn a b n c s =
      drawn a b a (min (b + n) s.height.toNat - 1) (pixels s c (min n (s.height.toNat - b))) s := by
  have hfar : b + min n ((s.height.toNat : Int) - b) - 1 = min (b + n) s.height.toNat - 1 := by omega
  rw [vlineDrawn, columnDraw_some (by rw [cut_inside h]; omega), cut_inside h, hfar]
  rfl

/-- Settles O36: the lines' calls in order; a row by its cut and its window. -/
theorem rectIsItsFourLines : Obligations.RectIsItsFourLines := by
  intro s x y w l c h
  refine ⟨fun hw hl hb => ?_, fun he => exec_eq_next (by simp) h.2 ?_, ?_⟩
  · have hne : ¬ (w = 0 ∨ l = 0) := by
      rintro (he | he) <;> simp [he] at hw hl
    have hframes : framesAll (draws s (.rect x y w l c)) s ≤ 28 := by
      rw [draws_rect hne]
      exact framesAll_filterMap_le (bound := fun _ => 7) _ (rectLines_frames_le x y w l c)
    have hstates := drawnAll_lines (Line.call c) (Line.call_eq (s := s) c) (rectLines x y w l) s (.refl s)
    rw [← draws_rect hne] at hstates
    refine exec_eq_next (by simp) h.2 ?_
    show rect x y w l c s = _
    rw [rect_draw h.1 hne, runDraws_ok _ s h fun k hk => hb k (by omega), ← hstates]
    rfl
  · show rect x y w l c s = _
    rw [rect, requireActive_active h.1, if_pos he]
  · rintro t a b n W p hn rfl rfl
    refine ⟨hlineDrawn_beyond c, fun ha hW hb hB => ?_, fun hW hout => ?_⟩
    · rw [hlineDrawn_cut c hn hW]
      exact drawn_inside (by simp only [Inside]; omega) _
    · rw [hlineDrawn_cut c hn hW]
      exact drawn_outside (by simp only [Inside]; omega) _

/-! ### CIRCLE and FILL_CIRCLE -/

theorem circle_negative (h : s.life = .active) {r : Int} (hr : r < 0) (xm ym : Int) (c : Half) :
    circle xm ym r c s = (s, .dropped) := by
  rw [circle, requireActive_active h, if_pos hr]

theorem fillCircle_negative (h : s.life = .active) {r : Int} (hr : r < 0) (xm ym : Int) (c : Half) :
    fillCircle xm ym r c s = (s, .dropped) := by
  rw [fillCircle, requireActive_active h, if_pos hr]

/-- One pixel of CIRCLE, in integers. -/
theorem drawn_point (q : Int × Int) (p : List Byte) (t : State) :
    (drawn q.1 q.2 q.1 q.2 p t).1 =
      if 0 ≤ q.1 ∧ q.1 < (t.width.toNat : Int) ∧ 0 ≤ q.2 ∧ q.2 < (t.height.toNat : Int) then
        streamed p (sentWindow q.1 q.2 q.1 q.2 t)
      else if t.cfg.streamAfterDrop = .skip then t
      else streamed p t := by
  simp only [← inside_pixel]
  unfold drawn
  split_ifs <;> rfl

/-- Settles O37. -/
theorem circleDrawsItsPoints : Obligations.CircleDrawsItsPoints := by
  refine fun s xm ym r c h => ⟨fun hr hb => ?_, fun hr => exec_eq_next (by simp) h.2 (circle_negative h.1 hr _ _ c)⟩
  have hdraws := draws_circle (s := s) (not_lt.mpr hr) xm ym c
  have hframes : framesAll (draws s (.circle xm ym r c)) s ≤ 4 * (circlePoints xm.toInt ym.toInt r.toInt).length := by
    rw [hdraws]
    refine (framesAll_filterMap_le (bound := fun _ => 4) _ fun q _ d hd => ?_).trans (by simp [Nat.mul_comm])
    cases hd
    refine (frames_le _ s).trans ?_
    simp [pointDraw, drawAsks, chunkCount_two]
  refine exec_eq_next (by simp) h.2 ((circle_draw h.1 (not_lt.mpr hr) xm ym c).trans ?_)
  rw [runDraws_ok _ s h fun k hk => hb k (by omega), hdraws, List.filterMap_eq_map', drawnAll, List.foldl_map]
  simp only [← drawn_point]
  rfl

/-- Settles O38: the columns' calls in order; a column by its cut and its window. -/
theorem fillCircleDrawsItsColumns : Obligations.FillCircleDrawsItsColumns := by
  intro s xm ym r c h
  refine ⟨fun hr hb => ?_, fun hr => exec_eq_next (by simp) h.2 (fillCircle_negative h.1 hr _ _ c), ?_⟩
  · have hdraws := draws_fillCircle (s := s) (not_lt.mpr hr) xm ym c
    have hframes : framesAll (draws s (.fillCircle xm ym r c)) s ≤
        ((circleSpans xm.toInt ym.toInt r.toInt).map fun q =>
          drawAsks (pixels s c (min q.2.2 (s.height.toNat - q.2.1)))).sum := by
      rw [hdraws]
      refine framesAll_filterMap_le _ fun q _ d hd => ?_
      unfold columnDraw at hd
      split_ifs at hd with h0
      cases hd
      refine (frames_le _ s).trans (le_of_eq ?_)
      rw [cut_inside (not_le.mp fun hle => h0 (cut_beyond hle))]
    have hstates := drawnAll_lines (fun q : Int × Int × Int => columnDraw q.1 q.2.1 q.2.2 c)
      (fun q u hu => hu.columnDraw ..) (circleSpans xm.toInt ym.toInt r.toInt) s (.refl s)
    refine exec_eq_next (by simp) h.2 ((fillCircle_draw h.1 (not_lt.mpr hr) xm ym c).trans ?_)
    rw [runDraws_ok _ s h fun k hk => hb k (by omega), hdraws, ← hstates]
    rfl
  · rintro t a b n H p hn rfl rfl
    refine ⟨vlineDrawn_beyond c, fun ha hW hb hB => ?_, fun hB hout => ?_⟩
    · rw [vlineDrawn_cut c hn hB]
      exact drawn_inside (by simp only [Inside]; omega) _
    · rw [vlineDrawn_cut c hn hB]
      exact drawn_outside (by simp only [Inside]; omega) _

end Sys2Proof.Machine
end

section
/-! The lifecycle operations under every answer of the bus (45_lifecycle_ops.md). -/

namespace Sys2Proof.Machine

open Sys2Proof.Safety

variable {s t : State}

/-! ### CONSTRUCT -/

/-- The object after a successful claim, before its first rotation (R220). -/
def constructing (h : BusHandle) (rst : Option Nat) (rl : Bool) (c : ColorSpace) (d : Depth) (s : State) : State :=
  startMirror c d (establishTable (bindBus h rst rl (emit .claim (ask s))))

/-- The MADCTL byte of its first rotation. -/
def firstMadctl (u : State) : Byte := rotationMadctl u.madctl (rtRead u.rt 0)

theorem construct_unsupported_colorSpace {k : Int} (hl : s.life = .unbound) (hk : colorSpaceOf s.cfg k = none)
    (h : BusHandle) (rst : Option Nat) (rl : Bool) (b : Int) :
    construct h rst rl k b s = (s, .valueError .unsupportedColorSpace) := by
  simp [construct, hl, hk]

theorem construct_unsupported_depth {k b : Int} {c : ColorSpace} (hl : s.life = .unbound)
    (hk : colorSpaceOf s.cfg k = some c) (hb : depthOf b = none) (h : BusHandle) (rst : Option Nat) (rl : Bool) :
    construct h rst rl k b s = (s, .valueError .unsupportedBitDepth) := by
  simp [construct, hl, hk, hb]

theorem ready_constructing (hidle : s.seq.phase = .idle) (h : BusHandle) (rst : Option Nat) (rl : Bool)
    (c : ColorSpace) (d : Depth) : Ready (constructing h rst rl c d s) :=
  ⟨rfl, by simpa [constructing] using hidle⟩

theorem answerAt_constructing (h : BusHandle) (rst : Option Nat) (rl : Bool) (c : ColorSpace) (d : Depth) :
    answerAt (constructing h rst rl c d s) 0 = answerAt s 1 :=
  answerAt_after_one (by simp [constructing]) (by simp [constructing]) 0

/-- A supported CONSTRUCT under each answer to its claim and to its one frame. -/
theorem construct_supported {k b : Int} {c : ColorSpace} {d : Depth} (hl : s.life = .unbound)
    (hidle : s.seq.phase = .idle) (hk : colorSpaceOf s.cfg k = some c) (hb : depthOf b = some d) (h : BusHandle)
    (rst : Option Nat) (rl : Bool) {u : State} (hu : constructing h rst rl c d s = u) :
    construct h rst rl k b s =
      match answerAt s 0, answerAt s 1 with
      | .fail st, _ => (emit .claim (ask s), .ioError st)
      | .ok, .ok =>
        (commitRotation 0 (rtRead u.rt 0) (firstMadctl u) (sentCommand u.cfg.opMadctl [firstMadctl u] u), .done)
      | .ok, .fail st => (undoConstruct s (failedCommand u.cfg.opMadctl [firstMadctl u] u), .ioError st) := by
  have hready : Ready u := hu ▸ ready_constructing hidle h rst rl c d
  have hanswer : answerAt u 0 = answerAt s 1 := hu ▸ answerAt_constructing h rst rl c d
  simp only [construct, hl, hk, hb, claim]
  cases answerAt s 0 with
  | fail st => rfl
  | ok =>
    have hrotation := setRotation_eq hready 0
    rw [hanswer] at hrotation
    subst hu
    dsimp only
    rw [show setRotation 0 (startMirror c d (establishTable (bindBus h rst rl (emit .claim (ask s))))) = _ from
      hrotation]
    cases answerAt s 1 <;> rfl

theorem specialGeometry_eq (P : Params) :
    specialGeometry P = decide ((P.nativeW, P.nativeH) ∈ [((240 : Half), (536 : Half)), (536, 240)]) := by
  simp [specialGeometry, Config.specialW, Config.specialH, Bool.decide_or, Bool.decide_and, beq_eq_decide]

theorem colorSpaceBits_eq (P : Params) (c : ColorSpace) :
    colorSpaceBits P c = if c = .bgr then P.madctlBgr else 0 := by
  cases c <;> rfl

theorem colorSpaceOf_of_mem {P : Params} {k : Int} {c : ColorSpace} (hne : P.codeRgb ≠ P.codeBgr)
    (h : (k, c) ∈ [(P.codeRgb, ColorSpace.rgb), (P.codeBgr, .bgr)]) : colorSpaceOf P k = some c := by
  simp only [List.mem_cons, Prod.mk.injEq, List.not_mem_nil, or_false] at h
  obtain ⟨rfl, rfl⟩ | ⟨rfl, rfl⟩ := h
  · exact colorSpaceOf_rgb P
  · exact colorSpaceOf_bgr hne

theorem depthOf_of_mem {b : Int} {d : Depth}
    (h : (b, d) ∈ [((16 : Int), Depth.bpp16), (18, .bpp18), (24, .bpp24)]) : depthOf b = some d := by
  simp only [List.mem_cons, Prod.mk.injEq, List.not_mem_nil, or_false] at h
  obtain ⟨rfl, rfl⟩ | ⟨rfl, rfl⟩ | ⟨rfl, rfl⟩ := h <;> rfl

/-- The object before its first rotation, register by register. -/
theorem constructing_eq {special : Bool} {table : RotTable}
    (hs : special = decide ((s.cfg.nativeW, s.cfg.nativeH) ∈ [((240 : Half), (536 : Half)), (536, 240)]))
    (ht : table = if special then s.cfg.vendorRotTable else genericTable s.cfg) (h : BusHandle) (rst : Option Nat)
    (rl : Bool) (c : ColorSpace) (d : Depth) :
    constructing h rst rl c d s =
      { s with
        life := .active, bus := h, busClaimed := true, rt := table
        madctl := if c = .bgr then s.cfg.madctlBgr else 0, colmod := colmodCode d, win := none
        colorSpace := c, bpp := d, txMadctl := none, txColmod := none
        csLevel := true, rstPresent := rst.isSome, rstActive := rl, rstLevel := !rl
        trace := s.trace ++ [.claim] ++ (if special then [] else [.warn .unknownGeometry])
        answers := s.answers.tail, asked := s.asked + 1 } := by
  rw [← specialGeometry_eq] at hs
  rw [← colorSpaceBits_eq]
  subst ht
  cases special <;> simp [constructing, establishTable, ← hs, startMirror, bindBus, warn, emit, ask, Config.csDeassert]

theorem tail_tail {α : Type} (l : List α) : l.tail.tail = l.drop 2 := by
  rw [← List.drop_one, ← List.drop_one, List.drop_drop]

theorem rtRead_zero (t : RotTable) : rtRead t 0#2 = t.e0 := rfl

/-- Settles O42. -/
theorem constructGivesEveryFieldItsValue : Obligations.ConstructGivesEveryFieldItsValue := by
  intro s h rst rl k b c d special table m hl hidle hne hk hb hok hs ht hm
  have hop := construct_supported hl hidle (colorSpaceOf_of_mem hne hk) (depthOf_of_mem hb) h rst rl
    (constructing_eq hs ht h rst rl c d)
  rw [hok 0 (by decide), hok 1 (by decide)] at hop
  refine (exec_eq_next (i := .construct h rst rl k b) (by simp) hidle hop).trans ?_
  subst hm
  simp [commitRotation, sentCommand, failedCommand, firstMadctl, rotationMadctl, Config.madctlKeep, rtRead_zero,
    tail_tail]

theorem colorSpaceOf_ne_none {P : Params} {k : Int} (hk : k = P.codeRgb ∨ k = P.codeBgr) :
    colorSpaceOf P k ≠ none := by
  unfold colorSpaceOf
  split_ifs <;> simp_all

/-- Settles O43. -/
theorem failedConstructCreatesNothing : Obligations.FailedConstructCreatesNothing := by
  intro s h rst rl k b hidle
  have hexec {t : State} {r : Result} (e : construct h rst rl k b s = (t, r)) :
      exec (.construct h rst rl k b) s = .next { t with result := some r } := exec_eq_next (by simp) hidle e
  have hsupported : (k = s.cfg.codeRgb ∨ k = s.cfg.codeBgr) → ∃ c, colorSpaceOf s.cfg k = some c := by
    rw [← Option.ne_none_iff_exists']
    exact colorSpaceOf_ne_none
  have hdepth : (b = 16 ∨ b = 18 ∨ b = 24) → ∃ d, depthOf b = some d := by
    rintro (rfl | rfl | rfl) <;> exact ⟨_, rfl⟩
  refine ⟨fun hl => hexec (construct_refused hl h rst rl k b),
    fun hl hr hb => hexec (construct_unsupported_colorSpace hl (colorSpaceOf_none hr hb) h rst rl b),
    fun hl hk h16 h18 h24 => ?_, fun st hl hk hb hfail => ?_, ?_⟩
  · obtain ⟨c, hc⟩ := hsupported hk
    exact hexec (construct_unsupported_depth hl hc (depthOf_none h16 h18 h24) h rst rl)
  · obtain ⟨c, hc⟩ := hsupported hk
    obtain ⟨d, hd⟩ := hdepth hb
    have hop := construct_supported hl hidle hc hd h rst rl rfl
    rw [hfail] at hop
    exact hexec hop
  · intro st c special table m hl hne hk hb hs ht hm hok hfail
    obtain ⟨d, hd⟩ := hdepth hb
    have hop := construct_supported hl hidle (colorSpaceOf_of_mem hne hk) hd h rst rl
      (constructing_eq hs ht h rst rl c d)
    rw [hok, hfail] at hop
    refine (hexec hop).trans ?_
    subst hm
    simp [undoConstruct, release, emit, failedCommand, firstMadctl, rotationMadctl, Config.madctlKeep, rtRead_zero,
      tail_tail, hl]

/-! ### DEINIT -/

/-- Settles O44. -/
theorem deinitReleasesOnce : Obligations.DeinitReleasesOnce := fun _ hidle =>
  ⟨fun hl => exec_eq_next (i := .deinit) (by simp) hidle (deinit_active hl),
    fun hl => exec_eq_next (by simp) hidle (deinit_released hl),
    fun hl => exec_eq_next (by simp) hidle (deinit_unbound hl)⟩

end Sys2Proof.Machine
end

section
/-! INIT and RESET: what a list of steps leaves behind (45_lifecycle_ops.md R223, R224). -/

namespace Sys2Proof.Machine

open Sys2Proof.Safety

variable {s t u : State}

/-! ### Steps that send the mirror's own bytes -/

/-- `t` comes after frames that leave the mirror as it is and move a ghost only to the mirror's byte. -/
structure SendsMirror (s t : State) : Prop where
  ready : Ready t
  cfg : t.cfg = s.cfg
  madctl : t.madctl = s.madctl
  colmod : t.colmod = s.colmod
  txMadctl : t.txMadctl = s.txMadctl ∨ t.txMadctl = some s.madctl
  txColmod : t.txColmod = s.txColmod ∨ t.txColmod = some s.colmod

theorem SendsMirror.refl (h : Ready s) : SendsMirror s s := ⟨h, rfl, rfl, rfl, .inl rfl, .inl rfl⟩

/-- A ghost that holds the mirror's byte goes on holding it. -/
theorem SendsMirror.keeps_txMadctl (h : SendsMirror s t) (hs : s.txMadctl = some s.madctl) :
    t.txMadctl = some s.madctl := by
  rcases h.txMadctl with e | e <;> simp [e, hs]

theorem SendsMirror.keeps_txColmod (h : SendsMirror s t) (hs : s.txColmod = some s.colmod) :
    t.txColmod = some s.colmod := by
  rcases h.txColmod with e | e <;> simp [e, hs]

theorem SendsMirror.trans (h : SendsMirror s t) (h' : SendsMirror t u) : SendsMirror s u where
  ready := h'.ready
  cfg := h'.cfg.trans h.cfg
  madctl := h'.madctl.trans h.madctl
  colmod := h'.colmod.trans h.colmod
  txMadctl := by
    rcases h'.txMadctl with e | e <;> rw [e]
    · exact h.txMadctl
    · exact .inr (congrArg some h.madctl)
  txColmod := by
    rcases h'.txColmod with e | e <;> rw [e]
    · exact h.txColmod
    · exact .inr (congrArg some h.colmod)

theorem SendsMirror.mirrorOk (h : SendsMirror s t) (hs : MirrorOk s) : MirrorOk t := by
  obtain ⟨hm, hc⟩ := hs
  refine ⟨?_, ?_⟩
  · rcases h.txMadctl with e | e <;> simp [e, h.madctl, hm]
  · rcases h.txColmod with e | e <;> simp [e, h.colmod, hc]

theorem sendsMirror_failedCommand (h : Ready s) (c : Byte) (p : List Byte) : SendsMirror s (failedCommand c p s) :=
  ⟨h, rfl, rfl, rfl, .inl rfl, .inl rfl⟩

/-- What a step must leave in the ghosts when it succeeds. -/
def Achieves (s t : State) : InitStep → Prop
  | .sendMadctl => t.txMadctl = some s.madctl
  | .sendColmod => t.txColmod = some s.colmod
  | _ => True

/-- The steps read the mirror, which the frames before them left as it was. -/
theorem SendsMirror.achieves_iff (h : SendsMirror s t) {a : InitStep} : Achieves t u a ↔ Achieves s u a := by
  cases a <;> simp [Achieves, h.madctl, h.colmod]

theorem SendsMirror.keeps_achieved (h : SendsMirror s t) (h' : SendsMirror t u) {a : InitStep} (ha : Achieves s t a) :
    Achieves s u a := by
  rw [← h.achieves_iff] at ha ⊢
  cases a with
  | sendMadctl => exact h'.keeps_txMadctl ha
  | sendColmod => exact h'.keeps_txColmod ha
  | _ => trivial

/-- An admissible step sends nothing that the mirror does not hold, and does what it is for when the bus takes it. -/
theorem initStep_sendsMirror (h : Ready s) (hne : s.cfg.opMadctl ≠ s.cfg.opColmod) {a : InitStep}
    (ha : s.cfg.initStepOk a = true) :
    SendsMirror s (initStep a s).1 ∧ ((initStep a s).2.isError = false → Achieves s (initStep a s).1 a) := by
  have hsend {c : Byte} {p : List Byte} (hp : p.length ≤ Config.busMax) (hs : SendsMirror s (sentCommand c p s))
      (hdone : Achieves s (sentCommand c p s) a) :
      SendsMirror s (submitCommand c p s).1 ∧
        ((submitCommand c p s).2.isError = false → Achieves s (submitCommand c p s).1 a) := by
    rw [submitCommand_eq h c p hp]
    cases answerAt s 0 with
    | ok => exact ⟨hs, fun _ => hdone⟩
    | fail st => exact ⟨sendsMirror_failedCommand h c p, fun he => absurd he (by simp [Result.isError])⟩
  cases a with
  | frame c p =>
    simp only [Params.initStepOk, Bool.and_eq_true, decide_eq_true_eq, bne_iff_ne] at ha
    obtain ⟨⟨hp, hm⟩, hc⟩ := ha
    exact hsend hp ⟨h, rfl, rfl, rfl, .inl (by simp [sentCommand, hm]), .inl (by simp [sentCommand, hc])⟩ trivial
  | sendColmod =>
    exact hsend (one_byte_fits _)
      ⟨h, rfl, rfl, rfl, .inl (by simp [sentCommand, hne.symm]), .inr (by simp [sentCommand])⟩
      (by simp [Achieves, sentCommand])
  | sendMadctl =>
    exact hsend (one_byte_fits _)
      ⟨h, rfl, rfl, rfl, .inr (by simp [sentCommand]), .inl (by simp [sentCommand, hne])⟩
      (by simp [Achieves, sentCommand])
  | delay n => exact ⟨⟨h, rfl, rfl, rfl, .inl rfl, .inl rfl⟩, fun _ => trivial⟩

/-- So does a list of them: whatever the bus answers the mirror stays honest, and without an error each step has done
what it is for. -/
theorem runSteps_sendsMirror (steps : List InitStep) (s : State) (h : Ready s)
    (hne : s.cfg.opMadctl ≠ s.cfg.opColmod) (hall : steps.all s.cfg.initStepOk = true) :
    SendsMirror s (runAll (steps.map initStep) s).1 ∧
      ((runAll (steps.map initStep) s).2.isError = false →
        ∀ a ∈ steps, Achieves s (runAll (steps.map initStep) s).1 a) := by
  induction steps generalizing s with
  | nil => exact ⟨.refl h, fun _ _ ha => absurd ha List.not_mem_nil⟩
  | cons a rest ih =>
    simp only [List.all_cons, Bool.and_eq_true] at hall
    obtain ⟨ha, hrest⟩ := hall
    obtain ⟨hstep, hdone⟩ := initStep_sendsMirror h hne ha
    simp only [List.map_cons, runAll]
    cases he : (initStep a s).2.isError with
    | true =>
      rw [andThen_error he]
      exact ⟨hstep, fun he' => absurd (he.symm.trans he') (by simp)⟩
    | false =>
      rw [andThen_ok he]
      obtain ⟨hlater, hdones⟩ := ih (initStep a s).1 hstep.ready (hstep.cfg ▸ hne) (hstep.cfg ▸ hrest)
      refine ⟨hstep.trans hlater, fun he' b hb => ?_⟩
      rcases List.mem_cons.mp hb with rfl | hb
      · exact hstep.keeps_achieved hlater (hdone he)
      · exact hstep.achieves_iff.mp (hdones he' b hb)

/-! ### INIT -/

theorem initSeq_ok {P : Params} (h : P.Ok) : P.initSeq.all P.initStepOk = true ∧
    InitStep.sendMadctl ∈ P.initSeq ∧ InitStep.sendColmod ∈ P.initSeq := by
  obtain ⟨-, -, -, -, -, -, -, -, hc, hm, hall, -⟩ := h
  exact ⟨hall, hm, hc⟩

theorem swResetSteps_ok {P : Params} (h : P.Ok) (hn : P.resetNoPin = .swreset) :
    P.swResetSteps.all P.initStepOk = true := by
  obtain ⟨-, -, -, -, -, -, -, -, -, -, -, -, hall⟩ := h
  exact hall hn

theorem init_active (h : s.life = .active) : init s = runAll (s.cfg.initSeq.map initStep) s :=
  requireActive_active h

theorem exec_init (h : Ready s) :
    exec .init s = .next { (init s).1 with result := some (init s).2 } := exec_eq_next (by simp) h.2 rfl

theorem init_sendsMirror (h : Ready s) (hok : s.cfg.Ok) :
    SendsMirror s (init s).1 ∧
      ((init s).2.isError = false → (init s).1.txMadctl = some s.madctl ∧ (init s).1.txColmod = some s.colmod) := by
  obtain ⟨hall, hm, hc⟩ := initSeq_ok hok
  obtain ⟨hsends, hdone⟩ := runSteps_sendsMirror _ s h hok.madctl_ne_colmod hall
  rw [init_active h.1]
  exact ⟨hsends, fun he => ⟨hdone he _ hm, hdone he _ hc⟩⟩

/-- Settles O47: the steps of an admissible `INIT_SEQ` keep the mirror, and those that send it set the ghosts to it. -/
theorem successfulInitSynchronisesTheGhosts : Obligations.SuccessfulInitSynchronisesTheGhosts := by
  intro s t h hok ht hdone
  rw [exec_init h] at ht
  obtain rfl := (Host.Outcome.next.inj ht).symm
  obtain ⟨hsends, hghosts⟩ := init_sendsMirror h hok
  obtain ⟨hm, hc⟩ := hghosts (by rw [Option.some.inj hdone]; rfl)
  exact ⟨hm.trans (congrArg some hsends.madctl.symm), hc.trans (congrArg some hsends.colmod.symm), hsends.madctl,
    hsends.colmod⟩

end Sys2Proof.Machine
end

section
/-! RESET and INIT under each answer of the bus (45_lifecycle_ops.md R223, R224). -/

namespace Sys2Proof.Machine

open Sys2Proof.Safety

variable {s t : State}

theorem runAll_next {op : Op} (h : op s = (t, .done)) (rest : List Op) : runAll (op :: rest) s = runAll rest t := by
  rw [runAll, h, andThen_done]

theorem runAll_stop {op : Op} {st : Nat} (h : op s = (t, .ioError st)) (rest : List Op) :
    runAll (op :: rest) s = (t, .ioError st) := by
  rw [runAll, h, andThen_ioError]

/-! ### RESET -/

/-- Window and ghosts forgotten (R223). -/
def forgotten (s : State) : State := { s with win := none, txMadctl := none, txColmod := none }

theorem resetPanel_pulse (h : s.life = .active) (hp : s.rstPresent = true) :
    resetPanel s = (forgotten (resetPulse s), .done) := by
  simp [resetPanel, requireActive_active h, hp, forgotten]

theorem resetPanel_done (h : s.life = .active) (hp : s.rstPresent = false) (hr : resetWithoutPin s = (t, .done)) :
    resetPanel s = (forgotten t, .done) := by
  simp [resetPanel, requireActive_active h, hp, hr, forgotten]

theorem resetPanel_refused {st : Nat} (h : s.life = .active) (hp : s.rstPresent = false)
    (hr : resetWithoutPin s = (t, .ioError st)) : resetPanel s = (t, .ioError st) := by
  simp [resetPanel, requireActive_active h, hp, hr]

theorem resetWithoutPin_nothing (h : s.cfg.resetNoPin = .noop ∨ s.cfg.swResetSteps = []) :
    resetWithoutPin s = (s, .done) := by
  unfold resetWithoutPin
  split
  next => rfl
  next hn => rw [h.resolve_left (by simp [hn])]; rfl

/-- A software reset of one frame and a wait. -/
theorem resetWithoutPin_frame {c : Byte} {p : List Byte} {wait : Nat} (h : Ready s)
    (hn : s.cfg.resetNoPin = .swreset) (hs : s.cfg.swResetSteps = [.frame c p, .delay wait])
    (hp : p.length ≤ Config.busMax) :
    resetWithoutPin s =
      match answerAt s 0 with
      | .ok => (delayUs wait (sentCommand c p s), .done)
      | .fail st => (failedCommand c p s, .ioError st) := by
  simp only [resetWithoutPin, hn, hs, List.map_cons]
  have hframe := submitCommand_eq h c p hp
  cases hb : answerAt s 0 with
  | ok => rw [hb] at hframe; exact runAll_next hframe _
  | fail st => rw [hb] at hframe; exact runAll_stop hframe _

/-- Settles O45: the pulse, nothing, or the one frame with its wait, and then the forgetting. -/
theorem resetPulsesThePin : Obligations.ResetPulsesThePin := by
  intro s h
  refine ⟨fun hp => ?_, fun hp hnone => ?_, fun c p wait hp hn hs hfits => ⟨fun hb => ?_, fun st hb => ?_⟩⟩
  · have hop : operation s.cfg .reset s = _ := resetPanel_pulse h.1 hp
    rw [exec_eq_next (by simp) h.2 hop]
    simp [forgotten, resetPulse, delayUs, pinWriteRst, emit]
  · have hop : operation s.cfg .reset s = _ := resetPanel_done h.1 hp (resetWithoutPin_nothing hnone)
    exact exec_eq_next (by simp) h.2 hop
  · have hr := resetWithoutPin_frame h hn hs hfits
    rw [hb] at hr
    have hop : operation s.cfg .reset s = _ := resetPanel_done h.1 hp hr
    rw [exec_eq_next (by simp) h.2 hop]
    simp [forgotten, delayUs, emit, sentCommand, failedCommand]
  · have hr := resetWithoutPin_frame h hn hs hfits
    rw [hb] at hr
    have hop : operation s.cfg .reset s = _ := resetPanel_refused h.1 hp hr
    exact exec_eq_next (by simp) h.2 hop

/-! ### INIT with the default sequence -/

/-- The default `INIT_SEQ` (R224). -/
def defaultSteps (P : Params) (wait : Nat) : List InitStep :=
  [.frame P.opSlpout [], .delay wait, .sendColmod, .sendMadctl, .frame P.opDispon []]

/-- The state after SLPOUT and its wait. -/
def awoken (wait : Nat) (s : State) : State := delayUs wait (sentCommand s.cfg.opSlpout [] s)

/-- The state after COLMOD too. -/
def colmodSent (wait : Nat) (s : State) : State := sentCommand s.cfg.opColmod [s.colmod] (awoken wait s)

/-- The state after MADCTL too. -/
def madctlSent (wait : Nat) (s : State) : State := sentCommand s.cfg.opMadctl [s.madctl] (colmodSent wait s)

theorem ready_awoken (h : Ready s) (wait : Nat) : Ready (awoken wait s) := 
  ready_sentCommand (c := s.cfg.opSlpout) (p := []) h

/-- The default sequence, frame by frame: each is sent if the bus took all before it, and the first refused ends it. -/
theorem runAll_defaultSteps (h : Ready s) (wait : Nat) :
    runAll ((defaultSteps s.cfg wait).map initStep) s =
      match answerAt s 0, answerAt s 1, answerAt s 2, answerAt s 3 with
      | .fail st, _, _, _ => (failedCommand s.cfg.opSlpout [] s, .ioError st)
      | .ok, .fail st, _, _ => (failedCommand s.cfg.opColmod [s.colmod] (awoken wait s), .ioError st)
      | .ok, .ok, .fail st, _ => (failedCommand s.cfg.opMadctl [s.madctl] (colmodSent wait s), .ioError st)
      | .ok, .ok, .ok, .fail st => (failedCommand s.cfg.opDispon [] (madctlSent wait s), .ioError st)
      | .ok, .ok, .ok, .ok => (sentCommand s.cfg.opDispon [] (madctlSent wait s), .done) := by
  have hslpout : initStep (.frame s.cfg.opSlpout []) s = _ := submitCommand_eq h s.cfg.opSlpout [] (Nat.zero_le _)
  have hawoken : Ready (awoken wait s) := ready_awoken h wait
  have hcolmodSent : Ready (colmodSent wait s) := ready_sentCommand hawoken
  have hmadctlSent : Ready (madctlSent wait s) := ready_sentCommand hcolmodSent
  have hcolmod : initStep .sendColmod (awoken wait s) = _ :=
    submitCommand_eq hawoken s.cfg.opColmod [s.colmod] (one_byte_fits _)
  have hcfg : (colmodSent wait s).cfg = s.cfg := by simp [colmodSent, awoken, delayUs]
  have hmirror : (colmodSent wait s).madctl = s.madctl := by simp [colmodSent, awoken, delayUs]
  have hmadctl : initStep .sendMadctl (colmodSent wait s) = _ :=
    submitCommand_eq hcolmodSent (colmodSent wait s).cfg.opMadctl [(colmodSent wait s).madctl] (one_byte_fits _)
  rw [hcfg, hmirror] at hmadctl
  have hdispon : initStep (.frame s.cfg.opDispon []) (madctlSent wait s) = _ :=
    submitCommand_eq hmadctlSent s.cfg.opDispon [] (Nat.zero_le _)
  have h1 : answerAt (awoken wait s) 0 = answerAt s 1 := answerAt_sentCommand ..
  have h2 : answerAt (colmodSent wait s) 0 = answerAt s 2 :=
    (answerAt_sentCommand ..).trans (answerAt_sentCommand ..)
  have h3 : answerAt (madctlSent wait s) 0 = answerAt s 3 :=
    ((answerAt_sentCommand ..).trans (answerAt_sentCommand ..)).trans (answerAt_sentCommand ..)
  rw [h1] at hcolmod
  rw [h2] at hmadctl
  rw [h3] at hdispon
  simp only [defaultSteps, List.map_cons, List.map_nil]
  cases h0 : answerAt s 0 with
  | fail st => rw [h0] at hslpout; exact runAll_stop hslpout _
  | ok =>
    rw [h0] at hslpout
    rw [runAll_next (t := sentCommand s.cfg.opSlpout [] s) hslpout, runAll_next (t := awoken wait s) rfl]
    cases h1 : answerAt s 1 with
    | fail st => rw [h1] at hcolmod; exact runAll_stop hcolmod _
    | ok =>
      rw [h1] at hcolmod
      rw [runAll_next (t := colmodSent wait s) hcolmod]
      cases h2 : answerAt s 2 with
      | fail st => rw [h2] at hmadctl; exact runAll_stop hmadctl _
      | ok =>
        rw [h2] at hmadctl
        rw [runAll_next (t := madctlSent wait s) hmadctl]
        cases h3 : answerAt s 3 with
        | fail st => rw [h3] at hdispon; exact runAll_stop hdispon _
        | ok => rw [h3] at hdispon; exact runAll_next hdispon []

theorem exec_init_default (h : Ready s) {wait : Nat} (hseq : s.cfg.initSeq = defaultSteps s.cfg wait)
    {r : Result} (hr : runAll ((defaultSteps s.cfg wait).map initStep) s = (t, r)) :
    exec .init s = .next { t with result := some r } := by
  rw [← hseq, ← init_active h.1] at hr
  exact exec_eq_next (by simp) h.2 hr

/-- Settles O46: each case of the answers in the sequence's own equation. -/
theorem initSendsTheDefaultSequence : Obligations.InitSendsTheDefaultSequence := by
  rintro s wait parts h hok hseq rfl
  have hne := hok.madctl_ne_colmod
  have hne' := hne.symm
  have hrun := runAll_defaultSteps h wait
  have hexec {t : State} {r : Result} := exec_init_default (t := t) (r := r) h hseq
  clear hok hseq
  refine ⟨fun hb => ?_, fun k st hk hb hst => ?_⟩
  · rw [hb 0 (by decide), hb 1 (by decide), hb 2 (by decide), hb 3 (by decide)] at hrun
    rw [hexec hrun]
    simp [madctlSent, colmodSent, awoken, delayUs, emit, sentCommand, failedCommand, hne, hne', tail_tail]
  · rcases k with _ | _ | _ | _ | k
    · rw [hst] at hrun
      rw [hexec hrun]
      simp [failedCommand]
    · rw [hb 0 (by decide), hst] at hrun
      rw [hexec hrun]
      simp [awoken, delayUs, emit, sentCommand, failedCommand, tail_tail]
    · rw [hb 0 (by decide), hb 1 (by decide), hst] at hrun
      rw [hexec hrun]
      simp [colmodSent, awoken, delayUs, emit, sentCommand, failedCommand, hne', tail_tail]
    · rw [hb 0 (by decide), hb 1 (by decide), hb 2 (by decide), hst] at hrun
      rw [hexec hrun]
      simp [madctlSent, colmodSent, awoken, delayUs, emit, sentCommand, failedCommand, hne, hne', tail_tail]
    · omega

end Sys2Proof.Machine
end

section
/-! Invariants of every step: the logical size and COLMOD (10_state.md R40), the claimed bus (R22), the honest mirror
(R34). -/

namespace Sys2Proof.Machine

open Sys2Proof.Safety

variable {s t : State} {i : Instr}

/-! ### Where an operation of one frame can end -/

/-- The operations that send at most one command frame. -/
def sendsFrame : Instr → Bool
  | .submitCommand _ _ | .setRotation _ | .setRotationTable _ _ | .setPixelFormat _ | .setColorSpace _
  | .sendCmd _ _ _ | .mirror _ _ | .swapXy _ | .invertColor _ | .dispOn | .dispOff | .backlightOn | .backlightOff
  | .brightness _ | .vscrollArea _ _ _ | .vscrollStart _ _ | .madctl _ | .caset _ _ | .raset _ _ | .colmod _ | .slpin
  | .slpout | .dispon | .dispoff | .invon | .invoff | .wrdisbv _ | .vscrdef _ _ _ | .vscsad _ => true
  | _ => false

/-- Such an operation that has no frame to send, as its operand is not admissible, changes nothing. -/
theorem operation_noFrame (h : s.life = .active) (hi : sendsFrame i = true) (hf : oneFrame s i = none) :
    (operation s.cfg i s).1 = s := by
  cases i with
  | submitCommand cmd p =>
    have hp : ¬ p.length ≤ Config.busMax := fun hp => by simp [oneFrame, hp] at hf
    exact congrArg Prod.fst (submitCommand_too_long h cmd (Nat.lt_of_not_le hp))
  | setPixelFormat b =>
    have hd : depthOf b = none := Option.map_eq_none_iff.mp hf
    simp [operation, setPixelFormat, requireActive_active h, hd]
  | setColorSpace k =>
    have hc : colorSpaceOf s.cfg k = none := Option.map_eq_none_iff.mp hf
    simp [operation, setColorSpace, requireActive_active h, hc]
  | sendCmd cmd c n =>
    have hn : 1 < n := by
      simp only [oneFrame] at hf
      split_ifs at hf
      omega
    simp [operation, sendCmd, requireActive_active h, hn]
  | setRotation | setRotationTable | mirror | swapXy | invertColor | dispOn | dispOff | backlightOn | backlightOff
  | brightness | vscrollArea | vscrollStart | madctl | caset | raset | colmod | slpin | slpout | dispon | dispoff
  | invon | invoff | wrdisbv | vscrdef | vscsad => exact absurd hf (Option.some_ne_none _)
  | _ => exact absurd hi Bool.false_ne_true

/-- It changes nothing, or its frame was refused, or its frame was taken and the mirror written. -/
theorem operation_sendsFrame (hidle : s.seq.phase = .idle) (hi : sendsFrame i = true) :
    (operation s.cfg i s).1 = s ∨ ∃ c p, oneFrame s i = some (c, p) ∧
      ((operation s.cfg i s).1 = failedCommand c p s ∨ (operation s.cfg i s).1 = commit s i (sentCommand c p s)) := by
  by_cases hactive : s.life = .active
  · cases hf : oneFrame s i with
    | none => exact .inl (operation_noFrame hactive hi hf)
    | some f =>
      refine .inr ⟨f.1, f.2, rfl, ?_⟩
      rw [operation_oneFrame ⟨hactive, hidle⟩ hf]
      cases answerAt s 0 with
      | ok => exact .inr rfl
      | fail st => exact .inl rfl
  · refine .inl ?_
    rw [operation_inactive hactive (fun _ _ _ _ _ e => by subst e; cases hi) (fun e => by subst e; cases hi)]

/-! ### Where CONSTRUCT can end -/

/-- The object is as it was, or only the claim is on record, or it was created, or created and given back. -/
theorem construct_ends (hidle : s.seq.phase = .idle) (h : BusHandle) (rst : Option Nat) (rl : Bool) (k b : Int) :
    (construct h rst rl k b s).1 = s ∨ (construct h rst rl k b s).1 = emit .claim (ask s) ∨
      s.life = .unbound ∧ ∃ c d u, constructing h rst rl c d s = u ∧
        ((construct h rst rl k b s).1 =
            commitRotation 0 (rtRead u.rt 0) (firstMadctl u) (sentCommand u.cfg.opMadctl [firstMadctl u] u) ∨
          (construct h rst rl k b s).1 = undoConstruct s (failedCommand u.cfg.opMadctl [firstMadctl u] u)) := by
  by_cases hl : s.life = .unbound
  · cases hk : colorSpaceOf s.cfg k with
    | none => exact .inl (congrArg Prod.fst (construct_unsupported_colorSpace hl hk h rst rl b))
    | some c =>
      cases hb : depthOf b with
      | none => exact .inl (congrArg Prod.fst (construct_unsupported_depth hl hk hb h rst rl))
      | some d =>
        rw [construct_supported hl hidle hk hb h rst rl rfl]
        cases answerAt s 0 with
        | fail st => exact .inr (.inl rfl)
        | ok =>
          refine .inr (.inr ⟨hl, c, d, _, rfl, ?_⟩)
          cases answerAt s 1 with
          | ok => exact .inl rfl
          | fail st => exact .inr rfl
  · exact .inl (congrArg Prod.fst (construct_refused hl h rst rl k b))

/-! ### The claimed bus -/

theorem BusHeld.construct (hidle : s.seq.phase = .idle) (hs : BusHeld s) {h : BusHandle}
    (hfits : busFits s.cfg h = true) (rst : Option Nat) (rl : Bool) (k b : Int) :
    BusHeld (construct h rst rl k b s).1 := by
  obtain ⟨hclaimed, hwidths, hphase⟩ := hs
  simp only [busFits, Bool.and_eq_true, decide_eq_true_eq] at hfits
  obtain he | he | ⟨-, c, d, u, rfl, he | he⟩ := construct_ends hidle h rst rl k b <;> rw [he]
  · exact ⟨hclaimed, hwidths, hphase⟩
  · exact ⟨hclaimed, hwidths, hphase⟩
  · exact ⟨by simp [constructing], fun _ => by simpa [constructing] using hfits, by simp [constructing]⟩
  · exact ⟨by simp, by simp, by simp [hidle]⟩

theorem BusHeld.deinit (hidle : s.seq.phase = .idle) (hs : BusHeld s) : BusHeld (deinit s).1 := by
  cases hl : s.life with
  | unbound => rwa [deinit_unbound hl]
  | active => rw [deinit_active hl]; exact ⟨by simp, by simp, fun hp => absurd hidle hp⟩
  | released => rwa [deinit_released hl]

/-- An open transfer still belongs to an ACTIVE object after an operation that does not write `life`. -/
theorem open_of_operation (hs : s.seq.phase ≠ .idle → s.life = .active) (hi : .life ∉ writes i)
    (hp : (operation s.cfg i s).1.seq.phase ≠ .idle) : s.life = .active := by
  by_contra hl
  have hsame := operation_inactive (i := i) hl (fun _ _ _ _ _ e => hi (by simp [e, writes]))
    (fun e => hi (by simp [e, writes])) s.cfg
  rw [hsame] at hp
  exact hl (hs hp)

/-- Settles O50: CONSTRUCT and DEINIT write `life` and the claim together; no other operation writes either. -/
theorem stepKeepsTheBusHeld : Obligations.StepKeepsTheBusHeld := fun _ _ =>
  step_keeps (I := BusHeld) (fun _ _ _ hs => hs) fun i s t hwf hs hx => by
    have hwithin := exec_within hx
    obtain ⟨hbegins, rfl⟩ := exec_next hx
    by_cases hi : .life ∈ writes i
    · obtain ⟨h, rst, rl, k, b, rfl⟩ | rfl := life_mem_writes hi
      · obtain ⟨-, hidle⟩ | ⟨d, he, -⟩ := hbegins
        · exact BusHeld.construct hidle hs hwf rst rl k b
        · cases he
      · obtain ⟨-, hidle⟩ | ⟨d, he, -⟩ := hbegins
        · exact BusHeld.deinit hidle hs
        · cases he
    · obtain ⟨hclaimed, hwidths, hphase⟩ := hs
      obtain ⟨hl, hc, hb⟩ := hwithin.same .life hi
      have hcfg := hwithin.cfg
      refine ⟨by rw [hl, hc]; exact hclaimed, fun ha => ?_, fun hp => ?_⟩
      · rw [hb, hcfg]
        exact hwidths (hl ▸ ha)
      · rw [hl]
        exact open_of_operation hphase hi hp

/-! ### The logical size and COLMOD -/

theorem SizeAndFormat.of_within {W : List Register} (h : Within W s t) (hs : SizeAndFormat s)
    (hW : ∀ r ∈ [Register.life, .rotation, .table, .format], r ∉ W) : SizeAndFormat t := by
  obtain ⟨hlife, -, -⟩ := h.same .life (hW _ (by simp))
  obtain ⟨hr, hw, hh⟩ := h.same .rotation (hW _ (by simp))
  obtain ⟨hc, hb⟩ := h.same .format (hW _ (by simp))
  have ht : t.rt = s.rt := h.same .table (hW _ (by simp))
  intro hactive
  rw [hw, hh, hc, hb, ht, hr]
  exact hs (hlife ▸ hactive)

theorem SizeAndFormat.operation (hidle : s.seq.phase = .idle) (hs : SizeAndFormat s)
    (hi : ∃ r ∈ [Register.life, .rotation, .table, .format], r ∈ writes i) :
    SizeAndFormat (operation s.cfg i s).1 := by
  cases i with
  | setRotation j =>
    obtain he | ⟨c, p, -, he | he⟩ := operation_sendsFrame (i := .setRotation j) hidle rfl <;> rw [he]
    · exact hs
    · exact hs
    · exact fun ha => ⟨rfl, rfl, (hs ha).2.2⟩
  | setRotationTable j rt =>
    obtain he | ⟨c, p, -, he | he⟩ := operation_sendsFrame (i := .setRotationTable j rt) hidle rfl <;> rw [he]
    · exact hs
    · exact hs
    · exact fun ha => ⟨rfl, rfl, (hs ha).2.2⟩
  | setPixelFormat b =>
    obtain he | ⟨c, p, hf, he | he⟩ := operation_sendsFrame (i := .setPixelFormat b) hidle rfl <;> rw [he]
    · exact hs
    · exact hs
    · cases hd : depthOf b with
      | none => simp [oneFrame, hd] at hf
      | some d =>
        simp only [commit, hd]
        exact fun ha => ⟨(hs ha).1, (hs ha).2.1, rfl⟩
  | construct h rst rl k b =>
    have hends := construct_ends hidle h rst rl k b
    rw [← show (Machine.operation s.cfg (.construct h rst rl k b) s) = construct h rst rl k b s from rfl] at hends
    obtain he | he | ⟨-, c, d, u, rfl, he | he⟩ := hends <;> rw [he]
    · exact hs
    · exact hs
    · exact fun _ => ⟨rfl, rfl, rfl⟩
    · exact fun ha => by simp at ha
  | deinit =>
    show SizeAndFormat (deinit s).1
    cases hl : s.life with
    | unbound => rwa [deinit_unbound hl]
    | active => exact fun ha => by simp [deinit_active hl] at ha
    | released => rwa [deinit_released hl]
  | _ => simp [writes] at hi

/-- Settles O49: the operations whose row names one of its registers write them together. -/
theorem stepKeepsSizeAndFormat : Obligations.StepKeepsSizeAndFormat := fun _ _ =>
  step_keeps (I := SizeAndFormat) (fun _ _ _ hs => hs) fun i s t _ hs hx => by
    by_cases hi : ∃ r ∈ [Register.life, .rotation, .table, .format], r ∈ writes i
    · obtain ⟨hbegins, rfl⟩ := exec_next hx
      obtain ⟨-, hidle⟩ | ⟨d, rfl, -⟩ := hbegins
      · exact SizeAndFormat.operation hidle hs hi
      · simp [writes] at hi
    · exact SizeAndFormat.of_within (exec_within hx) hs fun r hr hw => hi ⟨r, hr, hw⟩

/-! ### The honest mirror -/

theorem MirrorOk.of_within {W : List Register} (h : Within W s t) (hok : s.cfg.Ok) (hs : MirrorOk s)
    (hW : ∀ r ∈ [Register.madctl, .format, .ghosts], r ∉ W) : MirrorOk t := by
  have hm : t.madctl = s.madctl := h.same .madctl (hW _ (by simp))
  obtain ⟨hc, -⟩ := h.same .format (hW _ (by simp))
  obtain ⟨htm, htc⟩ : t.txMadctl = s.txMadctl ∧ t.txColmod = s.txColmod := h.same .ghosts (hW _ (by simp)) hok
  unfold MirrorOk
  rw [hm, hc, htm, htc]
  exact hs

/-- A MADCTL frame that the bus took, with its byte committed. -/
theorem mirrorOk_sentMadctl (hne : s.cfg.opMadctl ≠ s.cfg.opColmod) (hs : MirrorOk s) {m : Byte}
    (htm : t.txMadctl = (sentCommand s.cfg.opMadctl [m] s).txMadctl)
    (htc : t.txColmod = (sentCommand s.cfg.opMadctl [m] s).txColmod) (hm : t.madctl = m) (hc : t.colmod = s.colmod) :
    MirrorOk t := by
  unfold MirrorOk
  rw [htm, htc, hm, hc]
  exact ⟨.inr (by simp), by simpa [hne] using hs.2⟩

/-- The operations that compute MADCTL or COLMOD for the mirror. -/
def writesMirror : Instr → Bool
  | .setRotation _ | .setRotationTable _ _ | .setPixelFormat _ | .setColorSpace _ | .mirror _ _ | .swapXy _ => true
  | _ => false

theorem mirrorOk_commit (hne : s.cfg.opMadctl ≠ s.cfg.opColmod) (hs : MirrorOk s) (hi : writesMirror i = true)
    {c : Byte} {p : List Byte} (hf : oneFrame s i = some (c, p)) : MirrorOk (commit s i (sentCommand c p s)) := by
  cases i with
  | setRotation | setRotationTable | mirror | swapXy =>
    obtain ⟨rfl, rfl⟩ := frame_inj hf
    exact mirrorOk_sentMadctl hne hs rfl rfl rfl rfl
  | setPixelFormat b =>
    cases hd : depthOf b with
    | none => simp [oneFrame, hd] at hf
    | some d =>
      simp only [oneFrame, hd, Option.map_some] at hf
      obtain ⟨rfl, rfl⟩ := frame_inj hf
      simp only [commit, hd]
      exact ⟨by simpa [hne.symm] using hs.1, .inr (by simp)⟩
  | setColorSpace k =>
    cases hk : colorSpaceOf s.cfg k with
    | none => simp [oneFrame, hk] at hf
    | some c =>
      simp only [oneFrame, hk, Option.map_some] at hf
      obtain ⟨rfl, rfl⟩ := frame_inj hf
      simp only [commit, hk]
      exact mirrorOk_sentMadctl hne hs rfl rfl rfl rfl
  | _ => exact absurd hi Bool.false_ne_true

theorem MirrorOk.writesMirror (hidle : s.seq.phase = .idle) (hne : s.cfg.opMadctl ≠ s.cfg.opColmod) (hs : MirrorOk s)
    (hi : writesMirror i = true) : MirrorOk (operation s.cfg i s).1 := by
  have hsends : sendsFrame i = true := by
    cases i with
    | setRotation | setRotationTable | mirror | swapXy | setPixelFormat | setColorSpace => rfl
    | _ => exact absurd hi Bool.false_ne_true
  obtain he | ⟨c, p, hf, he | he⟩ := operation_sendsFrame hidle hsends <;> rw [he]
  · exact hs
  · exact hs
  · exact mirrorOk_commit hne hs hi hf

theorem MirrorOk.construct (hidle : s.seq.phase = .idle) (hne : s.cfg.opMadctl ≠ s.cfg.opColmod) (hs : MirrorOk s)
    (h : BusHandle) (rst : Option Nat) (rl : Bool) (k b : Int) : MirrorOk (construct h rst rl k b s).1 := by
  obtain he | he | ⟨-, c, d, u, hu, he | he⟩ := construct_ends hidle h rst rl k b <;> rw [he]
  · exact hs
  · exact hs
  · have hcfg : u.cfg = s.cfg := by subst hu; simp [constructing]
    have hfresh : MirrorOk u := by subst hu; exact ⟨.inl rfl, .inl rfl⟩
    exact mirrorOk_sentMadctl (s := u) (hcfg ▸ hne) hfresh rfl rfl rfl rfl
  · exact hs

theorem mirrorOk_forgotten (s : State) : MirrorOk (forgotten s) := ⟨.inl rfl, .inl rfl⟩

theorem resetWithoutPin_sendsMirror (h : Ready s) (hok : s.cfg.Ok) : SendsMirror s (resetWithoutPin s).1 := by
  unfold resetWithoutPin
  split
  next => exact .refl h
  next hn => exact (runSteps_sendsMirror _ s h hok.madctl_ne_colmod (swResetSteps_ok hok hn)).1

theorem MirrorOk.resetPanel (h : Ready s) (hok : s.cfg.Ok) (hs : MirrorOk s) : MirrorOk (resetPanel s).1 := by
  obtain ⟨-, he⟩ | ⟨-, ⟨-, he⟩ | ⟨-, he⟩⟩ := resetPanel_cases h.1 <;> rw [he]
  · exact mirrorOk_forgotten _
  · exact (resetWithoutPin_sendsMirror h hok).mirrorOk hs
  · exact mirrorOk_forgotten _

theorem MirrorOk.operation (hidle : s.seq.phase = .idle) (hok : s.cfg.Ok) (hraw : sendsRaw i = false) (hs : MirrorOk s)
    (hi : ∃ r ∈ [Register.madctl, .format, .ghosts], r ∈ writes i) : MirrorOk (operation s.cfg i s).1 := by
  have hne := hok.madctl_ne_colmod
  cases i with
  | setRotation | setRotationTable | mirror | swapXy | setPixelFormat | setColorSpace =>
    exact MirrorOk.writesMirror hidle hne hs rfl
  | construct h rst rl k b => exact MirrorOk.construct hidle hne hs h rst rl k b
  | reset =>
    by_cases ha : s.life = .active
    · exact MirrorOk.resetPanel ⟨ha, hidle⟩ hok hs
    · rwa [operation_inactive ha (by simp) (by simp)]
  | init =>
    by_cases ha : s.life = .active
    · exact (init_sendsMirror ⟨ha, hidle⟩ hok).1.mirrorOk hs
    · rwa [operation_inactive ha (by simp) (by simp)]
  | submitCommand | sendCmd | madctl | colmod => exact absurd hraw (by simp [sendsRaw])
  | _ => simp [writes] at hi

/-- Settles O51: a byte computed from the mirror is sent and then committed; no other frame carries MADCTL or COLMOD. -/
theorem mirrorSurvivesEveryOperationButRawOnes : Obligations.MirrorSurvivesEveryOperationButRawOnes := by
  intro s t i hok hraw hs hx
  by_cases hi : ∃ r ∈ [Register.madctl, .format, .ghosts], r ∈ writes i
  · obtain ⟨hbegins, rfl⟩ := exec_next hx
    obtain ⟨-, hidle⟩ | ⟨d, rfl, -⟩ := hbegins
    · exact MirrorOk.operation hidle hok hraw hs hi
    · simp [writes] at hi
  · exact MirrorOk.of_within (exec_within hx) hok hs fun r hr hw => hi ⟨r, hr, hw⟩

end Sys2Proof.Machine
end

section
/-! The chip-select law (40_bus_transport.md R123): every operation closes the brackets it opens, and a colour transfer
that RAMWR opened stays one until its last frame. -/

namespace Sys2Proof.Machine

open Sys2Proof.Safety

variable {s t : State} {i : Instr}

/-! ### The law on traces -/

theorem Bracket.run_append (b : Bracket) (es es' : List Event) :
    b.run (es ++ es') = (b.run es).bind fun b' => b'.run es' := by
  induction es generalizing b with
  | nil => rfl
  | cons e es ih =>
    simp only [List.cons_append, Bracket.run]
    cases b.next e with
    | none => rfl
    | some b' => exact ih b'

theorem Bracket.run_of_append {b b' b'' : Bracket} {es es' : List Event} (h : b.run es = some b')
    (h' : b'.run es' = some b'') : b.run (es ++ es') = some b'' := by
  rw [Bracket.run_append, h, Option.bind_some, h']

/-- Data frames keep a colour bracket open. -/
theorem Bracket.run_dataFrames (l : List (List Byte)) :
    Bracket.color.run (l.map fun d => .tx (dataFrame d)) = some .color := by
  induction l with
  | nil => rfl
  | cons d l ih => exact ih

theorem Bracket.run_colorTransfer (P : Params) (n : Nat) (l : List (List Byte)) :
    Bracket.outside.run ([.cs false, .tx (primingFrame P n)] ++ l.map (fun d => .tx (dataFrame d)) ++ [.cs true]) =
      some .outside :=
  Bracket.run_of_append (Bracket.run_of_append rfl (Bracket.run_dataFrames l)) rfl

/-! ### The two forms of the law -/

/-- No bracket is open. -/
structure Closed (s : State) : Prop where
  phase : s.seq.phase = .idle
  cs : s.csLevel = true
  run : Bracket.run .outside s.trace = some .outside

/-- A colour transfer is open. -/
structure Open (s : State) : Prop where
  phase : s.seq.phase = .chunk
  cs : s.csLevel = false
  run : Bracket.run .outside s.trace = some .color

theorem chipSelectLaw_iff : ChipSelectLaw s ↔ Closed s ∨ Open s :=
  ⟨fun h => h.imp (fun ⟨hp, hc, hr⟩ => ⟨hp, hc, hr⟩) fun ⟨hp, hc, hr⟩ => ⟨hp, hc, hr⟩,
    fun h => h.imp (fun ⟨hp, hc, hr⟩ => ⟨hp, hc, hr⟩) fun ⟨hp, hc, hr⟩ => ⟨hp, hc, hr⟩⟩

/-- Events that open no bracket or close the ones they open. -/
theorem Closed.append (h : Closed s) {es : List Event} (ht : t.trace = s.trace ++ es) (hp : t.seq.phase = .idle)
    (hc : t.csLevel = true) (hes : Bracket.run .outside es = some .outside) : Closed t :=
  ⟨hp, hc, ht ▸ Bracket.run_of_append h.run hes⟩

/-- Registers that the law does not speak of. -/
theorem Closed.write (h : Closed s) (ht : t.trace = s.trace) (hp : t.seq = s.seq) (hc : t.csLevel = s.csLevel) :
    Closed t :=
  ⟨hp ▸ h.phase, hc ▸ h.cs, ht ▸ h.run⟩

/-- An operation that begins and ends outside a bracket. -/
def KeepsClosed (op : Op) : Prop := ∀ s, Closed s → Closed (op s).1

/-! ### How operations are put together -/

theorem keepsClosed_requireActive {op : Op} (hop : ∀ s, s.life = .active → Closed s → Closed (op s).1) :
    KeepsClosed (requireActive op) := by
  intro s hs
  by_cases h : s.life = .active
  · rw [requireActive_active h]
    exact hop s h hs
  · rw [requireActive_inactive h]
    exact hs

theorem Closed.andThen {x : State × Result} {op : Op} (hx : Closed x.1) (hop : KeepsClosed op) :
    Closed (andThen x op).1 := by
  cases he : x.2.isError with
  | true => rwa [andThen_error he]
  | false => rw [andThen_ok he]; exact hop _ hx

theorem keepsClosed_runAll {ops : List Op} (h : ∀ op ∈ ops, KeepsClosed op) : KeepsClosed (runAll ops) := by
  induction ops with
  | nil => exact fun _ hs => hs
  | cons op rest ih =>
    rw [List.forall_mem_cons] at h
    exact fun s hs => (h.1 s hs).andThen (ih h.2)

/-! ### The transport -/

theorem Closed.failedCommand (h : Closed s) (c : Byte) (p : List Byte) : Closed (failedCommand c p s) :=
  h.append rfl h.phase rfl rfl

theorem Closed.sentCommand (h : Closed s) (c : Byte) (p : List Byte) : Closed (sentCommand c p s) :=
  h.append rfl h.phase rfl rfl

theorem keepsClosed_submitCommand (c : Byte) (p : List Byte) : KeepsClosed (submitCommand c p) := by
  intro s hs
  by_cases ha : s.life = .active
  · by_cases hp : p.length ≤ Config.busMax
    · rw [submitCommand_eq ⟨ha, hs.phase⟩ c p hp]
      cases answerAt s 0 with
      | ok => exact hs.sentCommand c p
      | fail st => exact hs.failedCommand c p
    · rwa [submitCommand_too_long ha c (Nat.lt_of_not_le hp)]
  · rwa [show submitCommand c p s = _ from requireActive_inactive ha]

theorem keepsClosed_submitColor (p : List Byte) : KeepsClosed (submitColor p) := by
  intro s hs
  by_cases ha : s.life = .active
  · obtain he | ⟨j, st, he⟩ := submitColor_cases ⟨ha, hs.phase⟩ p <;> rw [he]
    · exact hs.append rfl rfl rfl (Bracket.run_colorTransfer ..)
    · cases j with
      | zero => exact hs.append rfl hs.phase rfl rfl
      | succ k => exact hs.append rfl rfl rfl (Bracket.run_colorTransfer ..)
  · rwa [show submitColor p s = _ from operation_inactive (i := .submitColor p) ha (by simp) (by simp) s.cfg]

/-- RAMWR: the priming frame opens a transfer or is refused. -/
theorem Closed.openColor (hs : Closed s) (n : Nat) : Closed (openColor n s).1 ∨ Open (openColor n s).1 := by
  by_cases ha : s.life = .active
  · cases hb : answerAt s 0 with
    | ok =>
      rw [openColor_ok ha hb]
      exact .inr ⟨rfl, rfl, Bracket.run_of_append hs.run rfl⟩
    | fail st =>
      rw [openColor_fail ⟨ha, hs.phase⟩ hb]
      exact .inl (hs.append rfl hs.phase rfl rfl)
  · rw [show Machine.openColor n s = _ from requireActive_inactive ha]
    exact .inl hs

/-- DATA: the transfer goes on, or ends with its last chunk or a refused one. -/
theorem Open.sendChunk (hs : Open s) (d : List Byte) : Closed (sendChunk d s).1 ∨ Open (sendChunk d s).1 := by
  cases hb : answerAt s 0 with
  | ok =>
    rw [sendChunk_ok hb]
    split_ifs
    · exact .inl ⟨rfl, rfl, Bracket.run_of_append hs.run rfl⟩
    · exact .inr ⟨hs.phase, hs.cs, Bracket.run_of_append hs.run rfl⟩
  | fail st =>
    rw [sendChunk_fail hb hs.cs]
    exact .inl ⟨rfl, rfl, Bracket.run_of_append hs.run rfl⟩

/-! ### Window and drawing -/

theorem keepsClosed_setWindow (x0 y0 x1 y1 : Int) : KeepsClosed (setWindow x0 y0 x1 y1) := by
  refine keepsClosed_requireActive fun s _ hs => ?_
  split_ifs
  · refine (keepsClosed_submitCommand _ _ s hs).andThen fun t ht => ?_
    have hy := keepsClosed_submitCommand t.cfg.opRaset (coord4 t.cfg (coord y0) (coord y1)) t ht
    dsimp only
    split_ifs <;> exact hy.write rfl rfl rfl
  · exact hs

theorem keepsClosed_drawOp (d : Draw) : KeepsClosed (drawOp d) := by
  intro s hs
  have hw := keepsClosed_setWindow d.x0 d.y0 d.x1 d.y1 s hs
  simp only [drawOp, draw]
  split_ifs
  · exact hw
  · exact hw
  · exact (keepsClosed_submitColor d.p _ hw).andThen fun _ ht => ht

theorem Closed.drawing (hs : Closed s) (hi : drawing i = true) : Closed (operation s.cfg i s).1 := by
  by_cases ha : s.life = .active
  · obtain ⟨-, he⟩ | ⟨d, -, he⟩ | he := performsDraws ha hi <;> rw [he]
    · exact hs
    · exact keepsClosed_drawOp d s hs
    · refine keepsClosed_runAll (fun op hop => ?_) s hs
      obtain ⟨d, -, rfl⟩ := List.mem_map.mp hop
      exact keepsClosed_drawOp d
  · rwa [operation_inactive ha (fun _ _ _ _ _ e => by subst e; cases hi) (fun e => by subst e; cases hi)]

/-! ### Operations of one frame -/

theorem Closed.commit (u : State) (i : Instr) (hs : Closed s) : Closed (commit u i s) := by
  cases i with
  | setPixelFormat b => rw [Machine.commit]; split <;> exact hs.write rfl rfl rfl
  | setColorSpace k => rw [Machine.commit]; split <;> exact hs.write rfl rfl rfl
  | _ => exact hs.write rfl rfl rfl

theorem Closed.sendsFrame (hs : Closed s) (hi : sendsFrame i = true) : Closed (operation s.cfg i s).1 := by
  obtain he | ⟨c, p, -, he | he⟩ := operation_sendsFrame hs.phase hi <;> rw [he]
  · exact hs
  · exact hs.failedCommand c p
  · exact (hs.sentCommand c p).commit s i

/-! ### The lifecycle -/

theorem Closed.constructing (hs : Closed s) (h : BusHandle) (rst : Option Nat) (rl : Bool) (c : ColorSpace)
    (d : Depth) : Closed (constructing h rst rl c d s) := by
  rw [constructing_eq rfl rfl]
  refine hs.append (List.append_assoc ..) hs.phase rfl ?_
  split <;> rfl

theorem keepsClosed_construct (h : BusHandle) (rst : Option Nat) (rl : Bool) (k b : Int) :
    KeepsClosed (construct h rst rl k b) := by
  intro s hs
  obtain he | he | ⟨-, c, d, u, rfl, he | he⟩ := construct_ends hs.phase h rst rl k b <;> rw [he]
  · exact hs
  · exact hs.append (es := [.claim]) rfl hs.phase hs.cs rfl
  · exact ((hs.constructing h rst rl c d).sentCommand _ _).write rfl rfl rfl
  · exact ⟨hs.phase, hs.cs, Bracket.run_of_append ((hs.constructing h rst rl c d).failedCommand _ _).run rfl⟩

theorem keepsClosed_deinit : KeepsClosed deinit := by
  intro s hs
  cases hl : s.life with
  | unbound => rwa [deinit_unbound hl]
  | active =>
    rw [deinit_active hl]
    exact hs.append (es := [.release]) rfl hs.phase hs.cs rfl
  | released => rwa [deinit_released hl]

theorem keepsClosed_initStep (a : InitStep) : KeepsClosed (initStep a) := by
  cases a with
  | frame c p => exact keepsClosed_submitCommand c p
  | sendColmod => exact fun s => keepsClosed_submitCommand _ _ s
  | sendMadctl => exact fun s => keepsClosed_submitCommand _ _ s
  | delay n => exact fun s hs => hs.append (es := [.delay n]) rfl hs.phase hs.cs rfl

theorem keepsClosed_runSteps (steps : List InitStep) : KeepsClosed (runAll (steps.map initStep)) :=
  keepsClosed_runAll fun op hop => by
    obtain ⟨a, -, rfl⟩ := List.mem_map.mp hop
    exact keepsClosed_initStep a

theorem keepsClosed_init : KeepsClosed init :=
  keepsClosed_requireActive fun s _ hs => keepsClosed_runSteps s.cfg.initSeq s hs

theorem keepsClosed_resetWithoutPin : KeepsClosed resetWithoutPin := by
  intro s hs
  unfold resetWithoutPin
  split
  · exact hs
  · exact keepsClosed_runSteps _ s hs

theorem Closed.resetPulse (hs : Closed s) : Closed (resetPulse s) :=
  hs.append (es := [.rst s.rstActive, .delay s.cfg.resetAssertUs, .rst (!s.rstActive), .delay s.cfg.resetReleaseUs])
    (by simp [Machine.resetPulse]) hs.phase hs.cs rfl

theorem keepsClosed_resetPanel : KeepsClosed resetPanel := by
  refine keepsClosed_requireActive fun s _ hs => Closed.andThen ?_ fun t ht => ht.write rfl rfl rfl
  split_ifs
  · exact hs.resetPulse
  · exact keepsClosed_resetWithoutPin s hs

/-! ### Every operation -/

/-- Outside a transfer every operation ends outside one, but RAMWR may open one. -/
theorem Closed.operation (hs : Closed s) (hi : ∀ d, i ≠ .data d) :
    Closed (operation s.cfg i s).1 ∨ Open (operation s.cfg i s).1 := by
  cases i with
  | data d => exact absurd rfl (hi d)
  | ramwr n => exact hs.openColor n
  | submitColor p => exact .inl (keepsClosed_submitColor p s hs)
  | setWindow x0 y0 x1 y1 => exact .inl (keepsClosed_setWindow _ _ _ _ s hs)
  | setGap gx gy => exact .inl (keepsClosed_requireActive (fun _ _ ht => ht.write rfl rfl rfl) s hs)
  | width | height => exact .inl (keepsClosed_requireActive (fun _ _ ht => ht) s hs)
  | construct h rst rl k b => exact .inl (keepsClosed_construct h rst rl k b s hs)
  | deinit => exact .inl (keepsClosed_deinit s hs)
  | reset => exact .inl (keepsClosed_resetPanel s hs)
  | init => exact .inl (keepsClosed_init s hs)
  | pixel | fill | fillRect | hline | vline | bitmap | rect | circle | fillCircle => exact .inl (hs.drawing rfl)
  | _ => exact .inl (hs.sendsFrame rfl)

/-- DATA in an ACTIVE object begins in an open transfer; in any other object it is refused. -/
theorem chipSelectLaw_data (hs : Closed s ∨ Open s) {d : List Byte} (hb : s.life = .active → s.seq.phase = .chunk) :
    Closed (operation s.cfg (.data d) s).1 ∨ Open (operation s.cfg (.data d) s).1 := by
  by_cases ha : s.life = .active
  · have hopen : Open s := hs.resolve_left fun hc => by simpa [hc.phase] using hb ha
    rw [show operation s.cfg (.data d) s = sendChunk d s from requireActive_active ha]
    exact hopen.sendChunk d
  · rwa [operation_inactive ha (by simp) (by simp)]

/-- Settles O48: outside a transfer each operation closes its own brackets, inside one only DATA runs. -/
theorem stepKeepsTheChipSelectLaw : Obligations.StepKeepsTheChipSelectLaw := fun _ _ =>
  step_keeps (I := ChipSelectLaw) (fun _ _ _ hs => hs) fun i s t _ hs hx => by
    obtain ⟨hbegins, rfl⟩ := exec_next hx
    rw [chipSelectLaw_iff] at hs
    have hlaw : ChipSelectLaw (operation s.cfg i s).1 := by
      rw [chipSelectLaw_iff]
      obtain ⟨hi, hidle⟩ | ⟨d, rfl, hb⟩ := hbegins
      · have hclosed : Closed s := hs.resolve_right fun ho => by simpa [hidle] using ho.phase
        exact hclosed.operation hi
      · exact chipSelectLaw_data hs fun ha => (hb ha).1
    exact hlaw

end Sys2Proof.Machine
end

section
/-! The ghosts and the window are never read (10_state.md R25, R34): no operation's outcome depends on them. -/

namespace Sys2Proof.Machine

open Sys2Proof.Safety

variable {k : Unread} {s t : State}

/-! ### How operations are put together -/

theorem Differ.refl (s : State) : Differ k s s := ⟨s.txMadctl, s.txColmod, s.win, rfl, Kept.refl ..⟩

theorem agree_refl (x : State × Result) : Agree k x x := ⟨rfl, Differ.refl x.1⟩

theorem ignores_result (r : Result) : Ignores k fun s => (s, r) := fun _ a b w hk => ⟨rfl, a, b, w, rfl, hk⟩

/-- A test of registers that both states share. -/
theorem ignores_ite {c : State → Prop} [DecidablePred c] {op op' : Op}
    (hc : ∀ s a b w, c (withUnread a b w s) ↔ c s) (h : Ignores k op) (h' : Ignores k op') :
    Ignores k fun s => if c s then op s else op' s := by
  intro s a b w hk
  dsimp only
  by_cases hs : c s
  · rw [if_pos hs, if_pos ((hc s a b w).mpr hs)]
    exact h s a b w hk
  · rw [if_neg hs, if_neg (mt (hc s a b w).mp hs)]
    exact h' s a b w hk

/-! ### Rotation, window, format -/

theorem ignores_setRotation (i : BitVec 2) : Ignores k (setRotation i) :=
  ignores_requireActive fun s a b w hk =>
    agree_andThen
      (ignores_submitCommand s.cfg.opMadctl [rotationMadctl s.madctl (rtRead s.rt i)] s a b w hk)
      fun _ a b w hk => ⟨rfl, a, b, w, rfl, hk⟩

theorem ignores_setRotationTable (i : BitVec 2) (rt : RotTable) : Ignores k (setRotationTable i rt) := by
  refine ignores_requireActive fun s a b w hk => ?_
  obtain ⟨hr, a', b', w', hs, hk'⟩ := ignores_setRotation i { s with rt := rt } a b w hk
  have hother : setRotation i { withUnread a b w s with rt := rt } =
      (withUnread a' b' w' (setRotation i { s with rt := rt }).1, (setRotation i { s with rt := rt }).2) :=
    Prod.ext hs hr.symm
  rw [hother]
  revert hk'
  rcases setRotation i { s with rt := rt } with ⟨u, r⟩
  intro hk'
  cases r <;> exact ⟨rfl, a', b', w', rfl, hk'⟩

/-- The window is written after RASET, and cleared if that was refused. -/
theorem agree_writeWindow {x y : State × Result} (h : Agree k x y) (v : Option Window) :
    Agree k (if x.2.isError then ({ x.1 with win := none }, x.2) else ({ x.1 with win := v }, .done))
      (if y.2.isError then ({ y.1 with win := none }, y.2) else ({ y.1 with win := v }, .done)) := by
  obtain ⟨hr, hd⟩ := h
  rw [← hr]
  split_ifs
  · exact ⟨rfl, differ_win hd none⟩
  · exact ⟨rfl, differ_win hd v⟩

theorem ignores_setWindow (x0 y0 x1 y1 : Int) : Ignores k (setWindow x0 y0 x1 y1) := by
  refine ignores_requireActive (ignores_ite (fun _ _ _ _ => Iff.rfl) (fun s a b w hk => ?_) (ignores_result _))
  exact agree_andThen
    (ignores_submitCommand s.cfg.opCaset (coord4 s.cfg (coord x0) (coord x1)) s a b w hk) fun u a b w hk =>
      agree_writeWindow (ignores_submitCommand u.cfg.opRaset (coord4 u.cfg (coord y0) (coord y1)) u a b w hk) _

theorem ignores_setPixelFormat (b : Int) : Ignores k (setPixelFormat b) := by
  unfold setPixelFormat
  refine ignores_requireActive ?_
  cases depthOf b with
  | none => exact ignores_result _
  | some d =>
    exact fun s a b w hk =>
      agree_andThen (ignores_submitCommand s.cfg.opColmod [colmodCode d] s a b w hk)
        fun _ a b w hk => ⟨rfl, a, b, w, rfl, hk⟩

theorem ignores_setColorSpace (c : Int) : Ignores k (setColorSpace c) := by
  refine ignores_requireActive fun s a b w hk => ?_
  have hcfg : (withUnread a b w s).cfg = s.cfg := rfl
  simp only [hcfg]
  cases colorSpaceOf s.cfg c with
  | none => exact ⟨rfl, a, b, w, rfl, hk⟩
  | some d =>
    exact agree_andThen
      (ignores_submitCommand s.cfg.opMadctl [(s.madctl &&& ~~~s.cfg.madctlBgr) ||| colorSpaceBits s.cfg d] s a b w hk)
      fun _ a b w hk => ⟨rfl, a, b, w, rfl, hk⟩

/-! ### Raw command, mirror, gap, brightness, scroll -/

/-- One frame computed from registers that both states share. -/
theorem ignores_frame {c : State → Byte} {p : State → List Byte}
    (hc : ∀ s a b w, c (withUnread a b w s) = c s ∧ p (withUnread a b w s) = p s) :
    Ignores k fun s => submitCommand (c s) (p s) s := by
  intro s a b w hk
  obtain ⟨hcommand, hbytes⟩ := hc s a b w
  dsimp only
  rw [hcommand, hbytes]
  exact ignores_submitCommand _ _ s a b w hk

theorem ignores_sendCmd (cmd c : Byte) (n : Nat) : Ignores k (sendCmd cmd c n) :=
  ignores_requireActive (ignores_ite (fun _ _ _ _ => Iff.rfl) (ignores_result _) (ignores_submitCommand _ _))

theorem ignores_sendMadctl {m : State → Byte} (hm : ∀ s a b w, m (withUnread a b w s) = m s) :
    Ignores k fun s => sendMadctl (m s) s := by
  intro s a b w hk
  dsimp only
  rw [hm s a b w]
  exact agree_andThen (ignores_submitCommand s.cfg.opMadctl [m s] s a b w hk)
    fun _ a b w hk => ⟨rfl, a, b, w, rfl, hk⟩

theorem ignores_mirror (mx my : Bool) : Ignores k (mirror mx my) :=
  ignores_requireActive (ignores_sendMadctl (m := fun s => mirrorMadctl s.cfg s.madctl mx my) fun _ _ _ _ => rfl)

theorem ignores_swapXy (sw : Bool) : Ignores k (swapXy sw) :=
  ignores_requireActive
    (ignores_sendMadctl (m := fun s => writeMask s.madctl s.cfg.madctlMv sw) fun _ _ _ _ => rfl)

theorem ignores_setGap (gx gy : Half) : Ignores k (setGap gx gy) :=
  ignores_requireActive fun _ a b w hk => ⟨rfl, a, b, w, rfl, hk⟩

theorem ignores_brightness (b : Int) : Ignores k (brightness b) :=
  ignores_requireActive (ignores_frame (c := fun s => s.cfg.opWrdisbv)
    (p := fun s => [brightMap s.cfg (clampPercent b)]) fun _ _ _ _ => ⟨rfl, rfl⟩)

theorem ignores_vscrollArea (tfa vsa bfa : Half) : Ignores k (vscrollArea tfa vsa bfa) :=
  ignores_requireActive (ignores_frame (c := fun s => s.cfg.opVscrdef)
    (p := fun _ => be16 tfa ++ be16 vsa ++ be16 bfa) fun _ _ _ _ => ⟨rfl, rfl⟩)

/-- The open function sees neither ghosts nor window (R178, log entry 6). -/
theorem scrollOffset_withUnread (off : Half) (wrap : Option Bool) (a b : Option Byte) (w : Option Window) (s : State) :
    scrollOffset off wrap (withUnread a b w s) = scrollOffset off wrap s := rfl

theorem ignores_vscrollStart (off : Half) (wrap : Option Bool) : Ignores k (vscrollStart off wrap) :=
  ignores_requireActive (ignores_frame (c := fun s => s.cfg.opVscsad) (p := fun s => be16 (scrollOffset off wrap s))
    fun s a b w => ⟨rfl, congrArg be16 (scrollOffset_withUnread off wrap a b w s)⟩)

/-! ### Drawing -/

/-- What `draw` does after its window. -/
theorem agree_streamAfter {x y : State × Result} (h : Agree k x y) (p : List Byte) :
    Agree k
      (if x.2.isError then x
        else if x.2 = .dropped ∧ x.1.cfg.streamAfterDrop = .skip then (x.1, .dropped)
        else andThen (submitColor p x.1) fun s1 => (s1, x.2))
      (if y.2.isError then y
        else if y.2 = .dropped ∧ y.1.cfg.streamAfterDrop = .skip then (y.1, .dropped)
        else andThen (submitColor p y.1) fun s1 => (s1, y.2)) := by
  obtain ⟨hr, hd⟩ := h
  have hcfg : y.1.cfg = x.1.cfg := by
    obtain ⟨a, b, w, he, -⟩ := hd
    rw [he]
    rfl
  rw [← hr, hcfg]
  split_ifs
  · exact ⟨hr, hd⟩
  · exact ⟨rfl, hd⟩
  · exact agree_andThen ((ignores_submitColor p).agree hd) (ignores_result _)

theorem ignores_draw (x0 y0 x1 y1 : Int) (p : List Byte) : Ignores k (draw x0 y0 x1 y1 p) :=
  fun s a b w hk => agree_streamAfter (ignores_setWindow x0 y0 x1 y1 s a b w hk) p

theorem ignores_pixel (x y : Int) (c : Half) : Ignores k (pixel x y c) :=
  ignores_requireActive fun s => ignores_draw x y x y (col2 s.cfg c) s

theorem ignores_fill (c : Half) : Ignores k (fill c) :=
  ignores_requireActive (ignores_ite (fun _ _ _ _ => Iff.rfl) (ignores_result _) fun s => ignores_draw _ _ _ _ _ s)

theorem ignores_fillRect (x y w h : Int) (c : Half) : Ignores k (fillRect x y w h c) :=
  ignores_requireActive (ignores_ite (fun _ _ _ _ => Iff.rfl) (ignores_result _) fun s => ignores_draw _ _ _ _ _ s)

theorem ignores_hline (x y w : Int) (c : Half) : Ignores k (hline x y w c) :=
  ignores_requireActive (ignores_ite (fun _ _ _ _ => Iff.rfl) (ignores_result _)
    (ignores_ite (fun _ _ _ _ => Iff.rfl) (ignores_pixel x y c) fun s => ignores_draw _ _ _ _ _ s))

theorem ignores_vline (x y h : Int) (c : Half) : Ignores k (vline x y h c) :=
  ignores_requireActive (ignores_ite (fun _ _ _ _ => Iff.rfl) (ignores_result _)
    (ignores_ite (fun _ _ _ _ => Iff.rfl) (ignores_pixel x y c) fun s => ignores_draw _ _ _ _ _ s))

theorem ignores_bitmap (x0 y0 x1 y1 : Half) (buf : List Byte) : Ignores k (bitmap x0 y0 x1 y1 buf) := by
  refine ignores_requireActive (ignores_ite (fun _ _ _ _ => Iff.rfl) (ignores_result _) fun s a b w hk => ?_)
  have hlength : bitmapLength x0 y0 x1 y1 (withUnread a b w s) = bitmapLength x0 y0 x1 y1 s := rfl
  simp only [hlength]
  cases memRead buf 0 (bitmapLength x0 y0 x1 y1 s) with
  | none => exact ⟨rfl, a, b, w, rfl, hk⟩
  | some p => exact ignores_draw _ _ _ _ p s a b w hk

theorem ignores_rect (x y w h c : Half) : Ignores k (rect x y w h c) := by
  refine ignores_requireActive (ignores_ite (fun _ _ _ _ => Iff.rfl) (ignores_result _) (ignores_runAll _ ?_))
  simp only [List.forall_mem_cons]
  exact ⟨ignores_hline _ _ _ c, ignores_hline _ _ _ c, ignores_vline _ _ _ c, ignores_vline _ _ _ c, by simp⟩

theorem ignores_circle (xm ym r : Int) (c : Half) : Ignores k (circle xm ym r c) :=
  ignores_requireActive (ignores_ite (fun _ _ _ _ => Iff.rfl) (ignores_result _) (ignores_runAll _ (by
    simp only [List.forall_mem_map]
    exact fun q _ => ignores_pixel q.1 q.2 c)))

theorem ignores_fillCircle (xm ym r : Int) (c : Half) : Ignores k (fillCircle xm ym r c) :=
  ignores_requireActive (ignores_ite (fun _ _ _ _ => Iff.rfl) (ignores_result _) (ignores_runAll _ (by
    simp only [List.forall_mem_map]
    exact fun q _ => ignores_vline q.1 q.2.1 q.2.2 c)))

end Sys2Proof.Machine
end

section
/-! The lifecycle operations, and then every instruction, take no notice of the ghosts and the window (10_state.md R25,
R34). -/

namespace Sys2Proof.Machine

open Sys2Proof.Safety

variable {k : Unread} {s t : State}

/-! ### CONSTRUCT and DEINIT -/

/-- CONSTRUCT writes both ghosts and the window before anything could depend on them. -/
theorem constructing_withUnread (h : BusHandle) (rst : Option Nat) (rl : Bool) (c : ColorSpace) (d : Depth) (s : State)
    (a b : Option Byte) (w : Option Window) :
    constructing h rst rl c d (withUnread a b w s) = constructing h rst rl c d s := by
  rw [constructing_eq rfl rfl, constructing_eq rfl rfl]
  rfl

/-- A supported CONSTRUCT whose claim was taken: the first rotation, undone if its frame was refused. -/
def constructed (before u : State) : State × Result :=
  match setRotation 0 u with
  | (s2, .ioError st) => (undoConstruct before s2, .ioError st)
  | x => x

theorem construct_eq {c d : Int} {cs : ColorSpace} {depth : Depth} (hl : s.life = .unbound)
    (hc : colorSpaceOf s.cfg c = some cs) (hd : depthOf d = some depth) (h : BusHandle) (rst : Option Nat) (rl : Bool) :
    construct h rst rl c d s =
      match answerAt s 0 with
      | .fail st => (emit .claim (ask s), .ioError st)
      | .ok => constructed s (constructing h rst rl cs depth s) := by
  simp only [construct, hl, hc, hd, claim]
  cases answerAt s 0 <;> rfl

theorem agree_constructed (u : State) {a b : Option Byte} {w : Option Window}
    (hk : Kept k a b w s.txMadctl s.txColmod s.win) :
    Agree k (constructed s u) (constructed (withUnread a b w s) u) := by
  unfold constructed
  rcases setRotation 0 u with ⟨v, r⟩
  cases r with
  | ioError st => exact ⟨rfl, a, b, w, rfl, hk⟩
  | _ => exact agree_refl _

theorem ignores_construct (h : BusHandle) (rst : Option Nat) (rl : Bool) (c d : Int) :
    Ignores k (construct h rst rl c d) := by
  intro s a b w hk
  by_cases hl : s.life = .unbound
  · cases hc : colorSpaceOf s.cfg c with
    | none =>
      rw [construct_unsupported_colorSpace hl hc, construct_unsupported_colorSpace (s := withUnread a b w s) hl hc]
      exact ⟨rfl, a, b, w, rfl, hk⟩
    | some cs =>
      cases hd : depthOf d with
      | none =>
        rw [construct_unsupported_depth hl hc hd, construct_unsupported_depth (s := withUnread a b w s) hl hc hd]
        exact ⟨rfl, a, b, w, rfl, hk⟩
      | some depth =>
        have hanswer : answerAt (withUnread a b w s) 0 = answerAt s 0 := rfl
        rw [construct_eq hl hc hd, construct_eq (s := withUnread a b w s) hl hc hd, constructing_withUnread, hanswer]
        cases answerAt s 0 with
        | ok => exact agree_constructed _ hk
        | fail st => exact ⟨rfl, a, b, w, rfl, hk⟩
  · rw [construct_refused hl, construct_refused (s := withUnread a b w s) hl]
    exact ⟨rfl, a, b, w, rfl, hk⟩

theorem ignores_deinit : Ignores k deinit := by
  intro s a b w hk
  cases hl : s.life with
  | unbound =>
    rw [deinit_unbound hl, deinit_unbound (s := withUnread a b w s) hl]
    exact ⟨rfl, a, b, w, rfl, hk⟩
  | active =>
    rw [deinit_active hl, deinit_active (s := withUnread a b w s) hl]
    exact ⟨rfl, a, b, w, rfl, hk⟩
  | released =>
    rw [deinit_released hl, deinit_released (s := withUnread a b w s) hl]
    exact ⟨rfl, a, b, w, rfl, hk⟩

/-! ### INIT and RESET -/

theorem ignores_initStep (step : InitStep) : Ignores k (initStep step) := by
  cases step with
  | frame c p => exact ignores_submitCommand c p
  | sendColmod =>
    exact ignores_frame (c := fun s => s.cfg.opColmod) (p := fun s => [s.colmod]) fun _ _ _ _ => ⟨rfl, rfl⟩
  | sendMadctl =>
    exact ignores_frame (c := fun s => s.cfg.opMadctl) (p := fun s => [s.madctl]) fun _ _ _ _ => ⟨rfl, rfl⟩
  | delay n => exact fun _ a b w hk => ⟨rfl, a, b, w, rfl, hk⟩

theorem ignores_runSteps (steps : List InitStep) : Ignores k (runAll (steps.map initStep)) :=
  ignores_runAll _ (List.forall_mem_map.mpr fun step _ => ignores_initStep step)

theorem ignores_init : Ignores k init :=
  ignores_requireActive fun s => ignores_runSteps s.cfg.initSeq s

theorem ignores_resetWithoutPin : Ignores k resetWithoutPin := by
  intro s a b w hk
  have hcfg : (withUnread a b w s).cfg = s.cfg := rfl
  simp only [resetWithoutPin, hcfg]
  cases s.cfg.resetNoPin with
  | noop => exact ⟨rfl, a, b, w, rfl, hk⟩
  | swreset => exact ignores_runSteps _ s a b w hk

theorem ignores_resetPanel : Ignores k resetPanel := by
  refine ignores_requireActive fun s a b w hk => agree_andThen ?_ fun u a b w _ => ?_
  · exact ignores_ite (c := fun s => s.rstPresent = true) (op := fun s => (resetPulse s, .done))
      (fun _ _ _ _ => Iff.rfl) (fun _ a b w hk => ⟨rfl, a, b, w, rfl, hk⟩) ignores_resetWithoutPin s a b w hk
  · exact agree_refl _

/-! ### Every instruction -/

theorem ignores_operation (P : Params) (i : Instr) : Ignores k (operation P i) := by
  cases i with
  | submitCommand cmd p => exact ignores_submitCommand cmd p
  | submitColor p => exact ignores_submitColor p
  | setRotation i => exact ignores_setRotation i
  | setRotationTable i rt => exact ignores_setRotationTable i rt
  | setWindow x0 y0 x1 y1 => exact ignores_setWindow _ _ _ _
  | setPixelFormat b => exact ignores_setPixelFormat b
  | setColorSpace c => exact ignores_setColorSpace c
  | sendCmd cmd c n => exact ignores_sendCmd cmd c n
  | mirror mx my => exact ignores_mirror mx my
  | swapXy sw => exact ignores_swapXy sw
  | setGap gx gy => exact ignores_setGap gx gy
  | brightness b => exact ignores_brightness _
  | width | height => exact ignores_requireActive fun _ a b w hk => ⟨rfl, a, b, w, rfl, hk⟩
  | vscrollArea tfa vsa bfa => exact ignores_vscrollArea tfa vsa bfa
  | vscrollStart off wrap => exact ignores_vscrollStart off wrap
  | pixel x y c => exact ignores_pixel _ _ c
  | fill c => exact ignores_fill c
  | fillRect x y w h c => exact ignores_fillRect _ _ _ _ c
  | hline x y w c => exact ignores_hline _ _ _ c
  | vline x y h c => exact ignores_vline _ _ _ c
  | bitmap x0 y0 x1 y1 buf => exact ignores_bitmap x0 y0 x1 y1 buf
  | rect x y w h c => exact ignores_rect x y w h c
  | circle xm ym r c => exact ignores_circle _ _ _ c
  | fillCircle xm ym r c => exact ignores_fillCircle _ _ _ c
  | construct h rst rl c d => exact ignores_construct h rst rl c d
  | deinit => exact ignores_deinit
  | reset => exact ignores_resetPanel
  | init => exact ignores_init
  | ramwr n => exact ignores_openColor n
  | data d => exact ignores_requireActive (ignores_sendChunk d)
  | _ => exact ignores_submitCommand _ _

theorem outcome_finish {op : Op} (h : Ignores k op) (hd : Differ k s t) :
    SameOutcome (Differ k) (finish (op s)) (finish (op t)) := by
  obtain ⟨hr, a, b, w, hs, hk⟩ := h.agree hd
  rw [finish, finish, hs, ← hr]
  exact ⟨a, b, w, rfl, hk⟩

/-- DATA's preconditions are read from registers that both states share. -/
theorem outcome_data (d : List Byte) (h : Differ k s t) :
    SameOutcome (Differ k) (exec (.data d) s) (exec (.data d) t) := by
  have hd := h
  obtain ⟨a, b, w, rfl, -⟩ := h
  by_cases ha : s.life = .active
  · by_cases hp : s.seq.phase = .chunk
    · by_cases hl : d.length = min Config.busMax s.seq.rem
      · rw [exec_data_chunk ha hp hl, exec_data_chunk (s := withUnread a b w s) ha hp hl]
        exact outcome_finish (ignores_sendChunk d) hd
      · rw [exec_data_wrong_length ha hp hl, exec_data_wrong_length (s := withUnread a b w s) ha hp hl]
        rfl
    · rw [exec_data_outside ha hp, exec_data_outside (s := withUnread a b w s) ha hp]
      rfl
  · rw [exec_data_inactive ha, exec_data_inactive (s := withUnread a b w s) ha]
    exact outcome_finish (ignores_result _) hd

theorem outcome_exec (i : Instr) (h : Differ k s t) : SameOutcome (Differ k) (exec i s) (exec i t) := by
  by_cases hi : ∀ d, i ≠ .data d
  · have hcfg : t.cfg = s.cfg := by
      obtain ⟨a, b, w, rfl, -⟩ := h
      rfl
    rw [exec_eq_runOp hi, exec_eq_runOp hi, hcfg]
    exact outcome_runOp (ignores_operation s.cfg i) h
  · obtain ⟨d, rfl⟩ : ∃ d, i = .data d := by simpa using hi
    exact outcome_data d h

theorem sameOutcome_mono {R R' : State → State → Prop} (hR : ∀ s t, R s t → R' s t)
    {x y : Host.Outcome State Fault Refusal} (h : SameOutcome R x y) : SameOutcome R' x y := by
  cases x with
  | next s =>
    cases y with
    | next t => exact hR s t h
    | fault | refused => exact h
  | fault | refused => cases y <;> exact h

/-- Settles O59, for the ghosts and for the window by one argument. -/
theorem noOutcomeDependsOnGhostsOrWindow : Obligations.NoOutcomeDependsOnGhostsOrWindow := fun _ _ i =>
  ⟨fun h => sameOutcome_mono (fun _ _ => sameButGhosts_iff.mpr) (outcome_exec i (sameButGhosts_iff.mp h)),
    fun h => sameOutcome_mono (fun _ _ => sameButWindow_iff.mpr) (outcome_exec i (sameButWindow_iff.mp h))⟩

end Sys2Proof.Machine
end
